-- ==== Sys2Proof/Word.lean ====
section
/-! DEFINITION. The word types of the pulse-edge scheduler (rules R8, R20, R34, R50, R91, R95).
Every architectural value of the block is an unsigned bit vector of the width the spec states. -/

namespace Sys2Proof

/-- A byte of the register window (rule R52). -/
abbrev Byte := BitVec 8

/-- A tick count: countdown, period, COUNTER, COMPARE and ELAPSED are this wide (parameter `W`, rule R5). -/
abbrev Ticks := BitVec 16

/-- `nextDelay`, one bit wider than a tick count (rule R34). -/
abbrev Delay := BitVec 17

/-- A register of the 32-bit data path, or a command word (rules R50, R91). -/
abbrev Word := BitVec 32

/-- The key `{W, NM1, OFF}` of a bus transaction (rule R95). -/
abbrev Key := BitVec 11

/-- The places for channels in the register map, the channel table and the keys (rules R20, R51, R95), which
is the value of `N_CH`; a build may have fewer channels (rule R5, assumption 3). -/
abbrev numChannels : Nat := 16

/-- The number of a place for a channel. -/
abbrev ChannelIx := Fin numChannels

end Sys2Proof
end

