-- ==== Sys2Proof/Syntax.lean ====
section
/-! DEFINITION. What the host can ask of the block (rules R2, R90): bus accesses, the four commands,
and the operations of spec/opcode_table.json, one constructor per row. -/

namespace Sys2Proof

/-- A host access as it stands on the bus, legal or not: `BusRead(off, n)` and `BusWrite(off, n, v)`
(rule R9). -/
inductive BusAccess where
  /-- A read of `n` bytes at byte offset `off`. -/
  | read (off n : Nat)
  /-- A write of `n` bytes at byte offset `off`; only a legal write's data is ever looked at. -/
  | write (off n : Nat) (v : Word)
  deriving DecidableEq, Repr

/-- What a command word decodes to, when it is not ILLEGAL (rule R92). -/
inductive Command where
  | nop
  | init
  | setAngle (ch angle : BitVec 8)
  | setPeriod (ch : BitVec 8) (ticks : Ticks)
  deriving DecidableEq, Repr

/-- The operations of the opcode table. The first four are commands (each reaches the block as the word
of a CMD write), the others are bus transactions; a write carries its data word. -/
inductive Instr where
  /-- NOP, rule R105. -/
  | nop
  /-- INIT, rule R106. -/
  | init
  /-- SET_ANGLE, rule R122. -/
  | setAngle (ch angle : BitVec 8)
  /-- SET_PERIOD, rule R128. -/
  | setPeriod (ch : BitVec 8) (ticks : Ticks)
  /-- RD_CMD, rule R73. -/
  | rdCmd
  /-- WR_CMD, rule R69. -/
  | wrCmd (w : Word)
  /-- RD_CTRL, rule R74. -/
  | rdCtrl
  /-- WR_CTRL, rule R68. -/
  | wrCtrl (v : Word)
  /-- RD_STATUS, rule R75. -/
  | rdStatus
  /-- WR_STATUS, rule R66. -/
  | wrStatus (v : Word)
  /-- RD_ERRCMD, rule R76. -/
  | rdErrcmd
  /-- WR_ERRCMD, rule R71. -/
  | wrErrcmd (v : Word)
  /-- RD_COUNTER, rule R77. -/
  | rdCounter
  /-- WR_COUNTER, rule R71. -/
  | wrCounter (v : Word)
  /-- RD_COMPARE, rule R78. -/
  | rdCompare
  /-- WR_COMPARE, rule R67. -/
  | wrCompare (v : Word)
  /-- RD_ELAPSED, rule R79. -/
  | rdElapsed
  /-- WR_ELAPSED, rule R71. -/
  | wrElapsed (v : Word)
  /-- RD_PINS, rule R80. -/
  | rdPins
  /-- WR_PINS, rule R71. -/
  | wrPins (v : Word)
  /-- RD_CH of channel `i`, rule R81. -/
  | rdCh (i : ChannelIx)
  /-- WR_CH of channel `i`, rule R71. -/
  | wrCh (i : ChannelIx) (v : Word)
  /-- RD_UNMAPPED at an offset of 0x20..0x3C, rule R55. -/
  | rdUnmappedLow (off : Byte)
  /-- WR_UNMAPPED at an offset of 0x20..0x3C, rule R55. -/
  | wrUnmappedLow (off : Byte) (v : Word)
  /-- RD_UNMAPPED at an offset of 0x80..0xFC, rule R55. -/
  | rdUnmappedHigh (off : Byte)
  /-- WR_UNMAPPED at an offset of 0x80..0xFC, rule R55. -/
  | wrUnmappedHigh (off : Byte) (v : Word)
  deriving DecidableEq, Repr

/-- The table's operation for a decoded command. -/
def Command.toInstr : Command → Instr
  | .nop => .nop
  | .init => .init
  | .setAngle ch angle => .setAngle ch angle
  | .setPeriod ch ticks => .setPeriod ch ticks

end Sys2Proof
end

