-- ==== Sys2Proof/WellFormed.lean ====
section
/-! DEFINITION. Which operations have an encoding. Every operand but the offset of an unmapped access has
exactly the width of its field, so only those offsets are checked (rules R51, R53, R95). -/

namespace Sys2Proof

/-- An aligned offset in 0x20..0x3C, the lower unmapped range (rule R51). -/
def unmappedLow (off : Byte) : Bool :=
  decide (off.toNat % 4 = 0 ∧ 0x20 ≤ off.toNat ∧ off.toNat ≤ 0x3C)

/-- An aligned offset in 0x80..0xFC, the upper unmapped range (rule R51). -/
def unmappedHigh (off : Byte) : Bool :=
  decide (off.toNat % 4 = 0 ∧ 0x80 ≤ off.toNat ∧ off.toNat ≤ 0xFC)

/-- The operation has an encoding. -/
def Instr.wellFormed : Instr → Bool
  | .nop => true
  | .init => true
  | .setAngle _ _ => true
  | .setPeriod _ _ => true
  | .rdCmd => true
  | .wrCmd _ => true
  | .rdCtrl => true
  | .wrCtrl _ => true
  | .rdStatus => true
  | .wrStatus _ => true
  | .rdErrcmd => true
  | .wrErrcmd _ => true
  | .rdCounter => true
  | .wrCounter _ => true
  | .rdCompare => true
  | .wrCompare _ => true
  | .rdElapsed => true
  | .wrElapsed _ => true
  | .rdPins => true
  | .wrPins _ => true
  | .rdCh _ => true
  | .wrCh _ _ => true
  | .rdUnmappedLow off => unmappedLow off
  | .wrUnmappedLow off _ => unmappedLow off
  | .rdUnmappedHigh off => unmappedHigh off
  | .wrUnmappedHigh off _ => unmappedHigh off

end Sys2Proof
end

