-- ==== Sys2Proof/Decode.lean ====
section
/-! DEFINITION. Decoding and encoding of command words (rules R91 to R94) and bus transactions
(rule R95). Both decoders are total and refuse by name. -/

namespace Sys2Proof

/-- Why an encoding is no operation of the table. -/
inductive DecodeReject where
  /-- A command word with OP 0x4 to 0xF (rule R94): ILLEGAL. -/
  | reservedOp (op : BitVec 4)
  /-- A command word with a non-zero bit its format requires to be 0 (rule R94): ILLEGAL. -/
  | reservedField
  /-- A bus key with `NM1 != 3` (rules R54, R95): a bus error. -/
  | notWordWide
  /-- A bus key with `OFF[1:0] != 0` (rules R54, R95): a bus error. -/
  | misaligned
  /-- An access of no key: no byte count of 1..4, or an offset above 0xFF (rule R54): a bus error. -/
  | outsideWindow
  /-- Bytes that are neither a command word nor a bus transaction (assumption 10). -/
  | noSuchLayout
  deriving DecidableEq, Repr

/-! ## Command words -/

/-- Rule R92: a command word's command, or why it is ILLEGAL. -/
def decodeCommand (w : Word) : Except DecodeReject Command :=
  let op := w.extractLsb' 28 4
  if op = 0x0#4 then
    if w.extractLsb' 0 28 = 0 then .ok .nop else .error .reservedField
  else if op = 0x1#4 then
    if w.extractLsb' 0 28 = 0 then .ok .init else .error .reservedField
  else if op = 0x2#4 then
    if w.extractLsb' 24 4 = 0 ∧ w.extractLsb' 8 8 = 0 then
      .ok (.setAngle (w.extractLsb' 16 8) (w.extractLsb' 0 8))
    else .error .reservedField
  else if op = 0x3#4 then
    if w.extractLsb' 24 4 = 0 then
      .ok (.setPeriod (w.extractLsb' 16 8) (w.extractLsb' 0 16))
    else .error .reservedField
  else .error (.reservedOp op)

/-- The word of SET_ANGLE (rule R122; format A of rule R91). -/
def setAngleWord (ch angle : BitVec 8) : Word :=
  0x20000000#32 ||| ch.setWidth 32 <<< 16 ||| angle.setWidth 32

/-- The word of SET_PERIOD (rule R128; format P of rule R91). -/
def setPeriodWord (ch : BitVec 8) (ticks : Ticks) : Word :=
  0x30000000#32 ||| ch.setWidth 32 <<< 16 ||| ticks.setWidth 32

/-- The word of a command (rule R91). -/
def encodeCommand : Command → Word
  | .nop => 0x00000000#32
  | .init => 0x10000000#32
  | .setAngle ch angle => setAngleWord ch angle
  | .setPeriod ch ticks => setPeriodWord ch ticks

/-! ## Bus transactions -/

/-- A row of rule R95's table. -/
structure BusRow where
  /-- The key bits under the mask. -/
  pattern : Key
  /-- The key bits the row fixes. -/
  mask : Key
  /-- The row's operation, from the key's offset and the data word. -/
  op : Byte → Word → Instr

/-- Rule R95: the key matches the row. -/
def BusRow.hits (k : Key) (r : BusRow) : Bool := (k &&& r.mask) == r.pattern

/-- `i = OFF[5:2]` (rule R95). -/
def channelOfOffset (off : Byte) : ChannelIx := (off.extractLsb' 2 4).toFin

/-- The rows of rule R95 at the offsets 0x00 to 0x0C. -/
def controlRows : List BusRow :=
  [ ⟨0x300#11, 0x7FF#11, fun _ _ => .rdCmd⟩,
    ⟨0x700#11, 0x7FF#11, fun _ v => .wrCmd v⟩,
    ⟨0x304#11, 0x7FF#11, fun _ _ => .rdCtrl⟩,
    ⟨0x704#11, 0x7FF#11, fun _ v => .wrCtrl v⟩,
    ⟨0x308#11, 0x7FF#11, fun _ _ => .rdStatus⟩,
    ⟨0x708#11, 0x7FF#11, fun _ v => .wrStatus v⟩,
    ⟨0x30C#11, 0x7FF#11, fun _ _ => .rdErrcmd⟩,
    ⟨0x70C#11, 0x7FF#11, fun _ v => .wrErrcmd v⟩ ]

/-- The rows of rule R95 at the offsets 0x10 to 0x1C. -/
def timerRows : List BusRow :=
  [ ⟨0x310#11, 0x7FF#11, fun _ _ => .rdCounter⟩,
    ⟨0x710#11, 0x7FF#11, fun _ v => .wrCounter v⟩,
    ⟨0x314#11, 0x7FF#11, fun _ _ => .rdCompare⟩,
    ⟨0x714#11, 0x7FF#11, fun _ v => .wrCompare v⟩,
    ⟨0x318#11, 0x7FF#11, fun _ _ => .rdElapsed⟩,
    ⟨0x718#11, 0x7FF#11, fun _ v => .wrElapsed v⟩,
    ⟨0x31C#11, 0x7FF#11, fun _ _ => .rdPins⟩,
    ⟨0x71C#11, 0x7FF#11, fun _ v => .wrPins v⟩ ]

/-- The rows of rule R95 that cover a range of offsets. -/
def rangeRows : List BusRow :=
  [ ⟨0x340#11, 0x7C3#11, fun off _ => .rdCh (channelOfOffset off)⟩,
    ⟨0x740#11, 0x7C3#11, fun off v => .wrCh (channelOfOffset off) v⟩,
    ⟨0x320#11, 0x7E3#11, fun off _ => .rdUnmappedLow off⟩,
    ⟨0x720#11, 0x7E3#11, fun off v => .wrUnmappedLow off v⟩,
    ⟨0x380#11, 0x783#11, fun off _ => .rdUnmappedHigh off⟩,
    ⟨0x780#11, 0x783#11, fun off v => .wrUnmappedHigh off v⟩ ]

/-- The keys of the legal transactions (rule R95). -/
def busRows : List BusRow := controlRows ++ timerRows ++ rangeRows

/-- Rule R95: the operation of a key and its data word; a key that matches no row is a bus error. -/
def decodeKey (k : Key) (v : Word) : Except DecodeReject Instr :=
  match busRows.find? (BusRow.hits k) with
  | some r => .ok (r.op (k.extractLsb' 0 8) v)
  | none => .error (if k.extractLsb' 8 2 = 3#2 then .misaligned else .notWordWide)

/-- Rule R95: the key of an access whose byte count and offset have one. -/
def keyOf (write : Bool) (off n : Nat) : Option Key :=
  if 1 ≤ n ∧ n ≤ 4 ∧ off ≤ 0xFF then
    some (BitVec.ofBool write ++ BitVec.ofNat 2 (n - 1) ++ BitVec.ofNat 8 off)
  else none

/-- What a host access asks for (rules R54, R95). The rejected accesses are the bus errors. -/
def decodeAccess : BusAccess → Except DecodeReject Instr
  | .read off n =>
    match keyOf false off n with
    | some k => decodeKey k 0
    | none => .error .outsideWindow
  | .write off n v =>
    match keyOf true off n with
    | some k => decodeKey k v
    | none => .error .outsideWindow

/-! ## Bytes

A command word is four bytes, a read its key in two bytes, a write its key in two bytes and its data
word in four; every word is little-endian (rule R52; assumption 10). -/

/-- The word of four bytes, the lowest first (rule R52). -/
def wordOfBytes (b0 b1 b2 b3 : Byte) : Word := b3 ++ b2 ++ b1 ++ b0

/-- Byte `k` of a word, rule R52. -/
def byteOfWord (w : Word) (k : Nat) : Byte := w.extractLsb' (8 * k) 8

/-- The key in two bytes, when the bits above it are 0. -/
def keyOfBytes (b0 b1 : Byte) : Option Key :=
  if b1.extractLsb' 3 5 = 0 then some (b1.extractLsb' 0 3 ++ b0) else none

/-- The decoder over bytes: total, and refusing by name. -/
def decodeBytes : List Byte → Except DecodeReject Instr
  | [b0, b1, b2, b3] => (decodeCommand (wordOfBytes b0 b1 b2 b3)).map Command.toInstr
  | [b0, b1] =>
    match keyOfBytes b0 b1 with
    | some k => if k.getLsbD 10 then .error .noSuchLayout else decodeKey k 0
    | none => .error .noSuchLayout
  | [b0, b1, d0, d1, d2, d3] =>
    match keyOfBytes b0 b1 with
    | some k => if k.getLsbD 10 then decodeKey k (wordOfBytes d0 d1 d2 d3) else .error .noSuchLayout
    | none => .error .noSuchLayout
  | _ => .error .noSuchLayout

/-! ## Encoder -/

/-- The four bytes of a word, the lowest first. -/
def bytesOfWord (w : Word) : List Byte :=
  [byteOfWord w 0, byteOfWord w 1, byteOfWord w 2, byteOfWord w 3]

/-- The two bytes of a key, the lower first. -/
def bytesOfKey (k : Key) : List Byte := [k.extractLsb' 0 8, (k.extractLsb' 8 3).setWidth 8]

/-- The bytes of a four-byte read at an offset. -/
def encodeRead (off : Byte) : List Byte := bytesOfKey (0b011#3 ++ off)

/-- The bytes of a four-byte write at an offset. -/
def encodeWrite (off : Byte) (v : Word) : List Byte := bytesOfKey (0b111#3 ++ off) ++ bytesOfWord v

/-- The offset of CH[i] (rule R51). -/
def channelOffset (i : ChannelIx) : Byte := 0x40#8 + 4#8 * BitVec.ofNat 8 i.val

/-- The bytes of a well-formed operation, from the formats of rule R91 and the map of rule R51. -/
def encode : Instr → List Byte
  | .nop => bytesOfWord (encodeCommand .nop)
  | .init => bytesOfWord (encodeCommand .init)
  | .setAngle ch angle => bytesOfWord (encodeCommand (.setAngle ch angle))
  | .setPeriod ch ticks => bytesOfWord (encodeCommand (.setPeriod ch ticks))
  | .rdCmd => encodeRead 0x00
  | .wrCmd w => encodeWrite 0x00 w
  | .rdCtrl => encodeRead 0x04
  | .wrCtrl v => encodeWrite 0x04 v
  | .rdStatus => encodeRead 0x08
  | .wrStatus v => encodeWrite 0x08 v
  | .rdErrcmd => encodeRead 0x0C
  | .wrErrcmd v => encodeWrite 0x0C v
  | .rdCounter => encodeRead 0x10
  | .wrCounter v => encodeWrite 0x10 v
  | .rdCompare => encodeRead 0x14
  | .wrCompare v => encodeWrite 0x14 v
  | .rdElapsed => encodeRead 0x18
  | .wrElapsed v => encodeWrite 0x18 v
  | .rdPins => encodeRead 0x1C
  | .wrPins v => encodeWrite 0x1C v
  | .rdCh i => encodeRead (channelOffset i)
  | .wrCh i v => encodeWrite (channelOffset i) v
  | .rdUnmappedLow off => encodeRead off
  | .wrUnmappedLow off v => encodeWrite off v
  | .rdUnmappedHigh off => encodeRead off
  | .wrUnmappedHigh off v => encodeWrite off v

/-! ## The opcode table's own words -/

/-- The bytes of an opcode-table word of `nbits` bits: a command row has 32, a bus row its key; the data
word of a write is then zero. -/
def tableBytes (nbits w : Nat) : List Byte :=
  if nbits = 32 then bytesOfWord (BitVec.ofNat 32 w)
  else
    let key : List Byte := [BitVec.ofNat 8 w, BitVec.ofNat 8 (w / 256)]
    if w.testBit 10 then key ++ bytesOfWord 0 else key

/-- The operation the decoder reads from an opcode-table word. -/
def decodeTableWord (nbits w : Nat) : Option Instr := (decodeBytes (tableBytes nbits w)).toOption

/-- The host access that an opcode-table word stands for: a command row is a CMD write of its word
(rule R69), a bus row the access of its key. -/
def tableAccess (nbits w : Nat) : BusAccess :=
  if nbits = 32 then .write 0x00 4 (BitVec.ofNat 32 w)
  else if w.testBit 10 then .write (w % 256) (w / 256 % 4 + 1) 0
  else .read (w % 256) (w / 256 % 4 + 1)

end Sys2Proof
end

