-- ==== Sys2Proof/Machine/TimingAdapter.lean ====
section
/-! DEFINITION. The arithmetic of the Hardware Timing Adapter (rules R180, R181): exact, in unbounded
non-negative integers, rounding down. -/

namespace Sys2Proof.Machine

/-- Rule R180: the integer linear map. It does not clamp: above `inHi` it extrapolates. -/
def linearMap (x inLo inHi outLo outHi : Nat) : Nat :=
  outLo + (x - inLo) * (outHi - outLo) / (inHi - inLo)

/-- Rule R181: microseconds to ticks at the rate `tickNum / tickDen` ticks per microsecond. -/
def ticksFromUs (tickNum tickDen us : Nat) : Nat :=
  us * tickNum / tickDen

end Sys2Proof.Machine
end

