-- ==== Sys2Proof/Config.lean ====
section
/-! DEFINITION. The build-time parameters of the block (rules R5, R6) and the two sentinels.
A `Params` value is a parameter set together with the check of rule R6, so that no machine can be
built for an illegal set (93_implementation_defined.md S10). -/

namespace Sys2Proof

/-- The period value that means "inactive" (rules R5, R22; decision D5). -/
def Config.inactiveSentinel : Ticks := 0xFFFF#16

/-- The `nextDelay` value that means "no active channel" (rules R5, R34; decision D6). -/
def Config.idleSentinel : Delay := 0x10000#17

/-- The parameters of rule R5, each under its name there. -/
structure ParamSet where
  /-- `N_CH`: the number of channels. -/
  nCh : Nat
  /-- `W`: the width in bits of countdown, period, counter, compare and elapsed. -/
  w : Nat
  /-- `MIN_PULSE_US`: the pulse width at 0 degrees. -/
  minPulseUs : Nat
  /-- `MAX_PULSE_US`: the pulse width at `ANGLE_SPAN` degrees. -/
  maxPulseUs : Nat
  /-- `ANGLE_SPAN`: the upper end of the angle range. -/
  angleSpan : Nat
  /-- `REFRESH_US`: the low time between two pulses, in microseconds (OPEN in the spec). -/
  refreshUs : Nat
  /-- `TICK_NUM`: numerator of the tick rate in ticks per microsecond (OPEN in the spec). -/
  tickNum : Nat
  /-- `TICK_DEN`: denominator of the tick rate (OPEN in the spec). -/
  tickDen : Nat
  /-- `TOGGLE_THRESHOLD`: the toggle guard. -/
  toggleThreshold : Nat
  /-- `COALESCE_WINDOW`: the coalescing window. -/
  coalesceWindow : Nat
  /-- `HEARTBEAT_STEP`: the idle compare advance. -/
  heartbeatStep : Nat
  /-- `NEAR_MISS_EPS`: the near-miss limit and the amount added under it. -/
  nearMissEps : Nat
  /-- `DISPATCH_LATENCY_MAX`: the most ticks between a match and the commit of its dispatch. -/
  dispatchLatencyMax : Nat
  /-- `DIAG_PRESENT`: the diagnostic output exists. -/
  diagPresent : Bool
  deriving DecidableEq, Repr

/-- `REFRESH_TICKS` as an unbounded integer (rules R5, R185). -/
def ParamSet.refreshTicks (p : ParamSet) : Nat :=
  Machine.ticksFromUs p.tickNum p.tickDen p.refreshUs

/-- What the rules with fixed values ask of `N_CH` and `W`. The register map and the keys have places for
16 channels (rules R51, R80, R95). A `W`-bit period holds the inactive sentinel (rule R22), and the idle
sentinel is larger than every `W`-bit countdown (rule R34); both sentinels are fixed (U11), so `W` is 16.
DEDUCED (safe, assumption 3): rule R6 itself names neither. -/
def ParamSet.fits (p : ParamSet) : Bool :=
  decide (p.nCh ≤ numChannels ∧
    Config.inactiveSentinel.toNat < 2 ^ p.w ∧ 2 ^ p.w ≤ Config.idleSentinel.toNat)

/-- Rule R6: the legality conditions, beside `fits`. (`0 <= DISPATCH_LATENCY_MAX` and `0 <= NEAR_MISS_EPS` hold of
every natural number.) -/
def ParamSet.legal (p : ParamSet) : Bool :=
  p.fits && decide (1 ≤ p.tickNum ∧ 1 ≤ p.tickDen ∧
    p.refreshTicks ≤ 0xFFFF ∧
    1 ≤ p.toggleThreshold ∧ p.toggleThreshold ≤ 0xFFFF ∧
    1 ≤ p.coalesceWindow ∧ p.coalesceWindow ≤ 0xFFFF ∧
    1 ≤ p.heartbeatStep ∧ p.heartbeatStep ≤ 0xFFFF ∧
    p.nearMissEps ≤ 0xFFFF ∧
    p.minPulseUs ≤ p.maxPulseUs ∧ 1 ≤ p.angleSpan)

/-- A legal parameter set: what a machine is built for (rule R6). -/
structure Params where
  set : ParamSet
  isLegal : set.legal = true
  deriving DecidableEq, Repr

/-- Rule R6, S10: a parameter set is accepted exactly when it is legal. -/
def Params.ofSet (p : ParamSet) : Option Params :=
  if h : p.legal = true then some ⟨p, h⟩ else none

end Sys2Proof
end

