-- ==== Sys2Proof/Machine/Parameters.lean ====
section
/-! DEFINITION. The parameter values the spec gives (rule R5), the two named configurations (rule R7),
the one a machine is reset with, and the parameters as the 16-bit values the rules load and add. -/

namespace Sys2Proof.Machine

/-- The values of rule R5's table, with the OPEN parameters left as arguments. -/
def specParams (tickNum tickDen refreshUs : Nat) : ParamSet where
  nCh := 16
  w := 16
  minPulseUs := 544
  maxPulseUs := 2400
  angleSpan := 180
  refreshUs := refreshUs
  tickNum := tickNum
  tickDen := tickDen
  toggleThreshold := 5
  coalesceWindow := 200
  heartbeatStep := 250
  nearMissEps := 2
  dispatchLatencyMax := 1
  diagPresent := true

/-- CFG-R, the reference configuration (rule R7). -/
def cfgR : Params := ⟨specParams 2 1 20000, by decide⟩

/-- CFG-T, the configuration of the test vectors (rule R7). -/
def cfgT : Params := ⟨specParams 1 1 1000, by decide⟩

/-- The parameters of the machine `State.reset` describes.
DESIGN CHOICE (unsafe, assumption 2): the spec leaves `TICK_NUM`, `TICK_DEN` and `REFRESH_US` OPEN;
this is the reference configuration of rule R7. -/
def resetParams : Params := cfgR

/-- `REFRESH_TICKS` as it is loaded into a countdown (rules R106, R151, R185); rule R6 makes it fit. -/
def refreshTicks (p : Params) : Ticks := BitVec.ofNat 16 p.set.refreshTicks

/-- `HEARTBEAT_STEP` as it is added to COMPARE and loaded into ELAPSED (rule R155). -/
def heartbeatStep (p : Params) : Ticks := BitVec.ofNat 16 p.set.heartbeatStep

/-- `COALESCE_WINDOW` as it is added to COMPARE and loaded into ELAPSED (rule R155). -/
def coalesceWindow (p : Params) : Ticks := BitVec.ofNat 16 p.set.coalesceWindow

/-- `NEAR_MISS_EPS` as it is added to COMPARE (rule R155). -/
def nearMissEps (p : Params) : Ticks := BitVec.ofNat 16 p.set.nearMissEps

end Sys2Proof.Machine
end

