-- ==== Sys2Proof/Machine/State.lean ====
section
/-! DEFINITION. The state of the block: rule R20's list, whole, and beside it what the model itself needs
(its parameters, the bus response, the transactions the outside world asks for). -/

namespace Sys2Proof.Machine

/-- One channel of the Channel State Store (rules R21 to R24). -/
structure Channel where
  /-- Ticks until the next level transition (rule R21). -/
  countdown : Ticks
  /-- The pulse width in ticks, or the inactive sentinel (rule R22). -/
  period : Ticks
  /-- The output level latch: true is high (rule R23). -/
  level : Bool
  /-- The pin direction: true is output (rule R24). -/
  dir : Bool
  deriving DecidableEq, Repr

/-- The channel table, one place for each channel the register map has (rule R51). A place from `N_CH` on
holds no channel and keeps its reset value (Laws/Step.lean, `step_keeps_missing_channels`). -/
abbrev Channels := Vector Channel numChannels

/-- What the block answers a host access with. -/
inductive Response where
  /-- A read's answer: an error response or not, and the data (rules R54, R73 to R81, R203). -/
  | read (error : Bool) (data : Word)
  /-- A write's answer: an error response or not (rules R54, R201). -/
  | write (error : Bool)
  deriving DecidableEq, Repr

/-- What comes from outside the block, in the order in which it happens (rule R62). The DISPATCH is not among
them: it is due by itself (rule R146). -/
inductive Event where
  /-- Reset is asserted and released, with the tick input running from then on (rules R214, R230). Where a DISPATCH is due, `overtakes` says which of the
  two comes first: the spec gives no order (DESIGN CHOICE, safe, assumption 8). -/
  | reset (overtakes : Bool)
  /-- The tick input stops (rule R235); it returns with a reset only (rule R214). Where a DISPATCH is due
  and enabled, `overtakes` says which of the two comes first: it may commit just before the input stops
  or not (DESIGN CHOICE, safe, assumption 21). -/
  | tickStops (overtakes : Bool)
  /-- A tick of the tick input (rule R140). Where a DISPATCH is due and the latency bound still lets
  the counter advance, `overtakes` says which of the two comes first (rule R208 allows both). -/
  | tick (overtakes : Bool)
  /-- A host access (rule R10). -/
  | access (a : BusAccess)
  deriving DecidableEq, Repr

/-- What the arbitration lets happen next (rules R61, R146, R230). -/
inductive Turn where
  | reset
  | tickStops
  | tick
  | dispatch
  | access (a : BusAccess)
  /-- No step of any agent is enabled (93_implementation_defined.md S12). -/
  | stuck
  deriving DecidableEq, Repr

/-- The kinds of command rejection (rule R201). -/
inductive CmdErrorKind where
  | illegal
  | channel
  | period
  deriving DecidableEq, Repr

/-- The state. The first field and the last three are the model's own (assumptions 1, 4, 5, 7); all
others are rule R20's. -/
structure State where
  /-- The build-time parameters (rule R5). No step changes them. -/
  params : Params
  /-- The channel table (rules R21 to R24). -/
  chans : Channels
  /-- COUNTER (rule R25). -/
  counter : Ticks
  /-- COMPARE (rule R26). -/
  compare : Ticks
  /-- ELAPSED (rule R27). -/
  elapsed : Ticks
  /-- PENDING (rule R28), STATUS bit 0. -/
  pending : Bool
  /-- `pend_age` (rule R29). -/
  pendAge : Nat
  /-- CTRL.EN (rule R30). -/
  en : Bool
  /-- CTRL.DIAG_EN (rule R30). -/
  diagEn : Bool
  /-- CTRL.CLAMP (rule R30). -/
  clamp : Bool
  /-- STATUS.ERR_ILLEGAL (rule R31). -/
  errIllegal : Bool
  /-- STATUS.ERR_CHANNEL (rule R31). -/
  errChannel : Bool
  /-- STATUS.ERR_PERIOD (rule R31). -/
  errPeriod : Bool
  /-- STATUS.ERR_BUS (rule R31). -/
  errBus : Bool
  /-- ERRCMD (rule R32). -/
  errcmd : Word
  /-- `diag`, the level of `diag_out` (rule R33), STATUS bit 5. -/
  diag : Bool
  /-- The answer to the last host access performed; none before the first. -/
  response : Option Response
  /-- The transactions the outside world asks for, the next one first. -/
  events : List Event
  /-- The tick input is running (rule R235). While it is, ticks go on after the last listed event. -/
  ticking : Bool
  deriving DecidableEq, Repr

/-- Why the machine stops. -/
inductive Fault where
  /-- Raised by the step where no agent has an enabled step: the tick input is stopped, so that the timer
  and the dispatch agent are stuck (rule R235, S12), and what is listed next is nothing, a tick, or an
  access that a due DISPATCH holds (rule R61). Safe: the hardware does nothing either. -/
  | noStepEnabled
  deriving DecidableEq, Repr

/-- Why an operation has no meaning. -/
inductive Refusal where
  /-- Raised by `exec` for an operation the model gives no meaning yet. Safe. No arm raises it. -/
  | notModelled (mnemonic : String)
  deriving DecidableEq, Repr

/-- A channel after reset (rule R39), which is a channel after INIT but for the latches. -/
def Channel.atReset (p : Params) : Channel where
  countdown := refreshTicks p
  period := Config.inactiveSentinel
  level := false
  dir := false

/-- The reset values of rule R39 in a machine built for the parameters `p`, with nothing listed and the
tick input running (assumption 5). -/
def State.resetWith (p : Params) : State where
  params := p
  chans := Vector.replicate numChannels (Channel.atReset p)
  counter := 0
  compare := heartbeatStep p
  elapsed := heartbeatStep p
  pending := false
  pendAge := 0
  en := false
  diagEn := false
  clamp := true
  errIllegal := false
  errChannel := false
  errPeriod := false
  errBus := false
  errcmd := 0
  diag := false
  response := none
  events := []
  ticking := true

/-- The machine right after reset (rule R39), built for `resetParams` (assumption 2). -/
def State.reset : State := State.resetWith resetParams

end Sys2Proof.Machine
end

