-- ==== Sys2Proof/Machine/Ops.lean ====
section
/-! DEFINITION. The shared operations over the state: the channel table, the answers to host accesses, the
two error conditions (rules R201, R203), and the outputs (rule R36). -/

namespace Sys2Proof.Machine

/-! ## The channel table -/

/-- Rule R22: a channel is active exactly when its period is not the inactive sentinel. -/
def Channel.active (c : Channel) : Bool := c.period != Config.inactiveSentinel

/-- The same change to every channel of the table. -/
def updateAll (f : Channel → Channel) (cs : Channels) : Channels :=
  ⟨(cs.toList.map f).toArray, by simp⟩

/-- Channel `i` (rule R9). -/
def State.channel (s : State) (i : ChannelIx) : Channel := s.chans[i]

/-- The state with channel `i` replaced. -/
def State.setChannel (s : State) (i : ChannelIx) (c : Channel) : State :=
  { s with chans := s.chans.set i c }

/-- SET_ANGLE's and SET_PERIOD's effect (rules R122, R128): the period is stored and the pin made an
output; countdown and level stay (rule R124). -/
def State.arm (s : State) (i : ChannelIx) (period : Ticks) : State :=
  s.setChannel i { s.channel i with period := period, dir := true }

/-! ## Answers -/

/-- A read is answered with its data and changes nothing else (rules R53, R56). -/
def State.answerRead (s : State) (v : Word) : State := { s with response := some (.read false v) }

/-- A write is answered without error; a command rejection is answered so too (rule R201). -/
def State.answerWrite (s : State) : State := { s with response := some (.write false) }

/-! ## The error conditions -/

/-- Rule R201: `raise CmdError(kind, w)`. -/
def State.raiseCmdError (s : State) (kind : CmdErrorKind) (w : Word) : State :=
  match kind with
  | .illegal => { s with errIllegal := true, errcmd := w }
  | .channel => { s with errChannel := true, errcmd := w }
  | .period => { s with errPeriod := true, errcmd := w }

/-- The error response to an access (rules R54, R203): a read so answered returns data 0. -/
def errorResponse : BusAccess → Response
  | .read _ _ => .read true 0
  | .write _ _ _ => .write true

/-- Rule R203: `raise BusError(off, n)`. -/
def State.raiseBusError (s : State) (a : BusAccess) : State :=
  { s with errBus := true, response := some (errorResponse a) }

/-! ## Outputs -/

/-- What the block drives on a servo output. -/
inductive Drive where
  | driven (high : Bool)
  | undriven
  deriving DecidableEq, Repr

/-- Rule R36: `servo_out[i]`. -/
def State.servoOut (s : State) (i : ChannelIx) : Drive :=
  if (s.channel i).dir then .driven (s.channel i).level else .undriven

/-- Rule R36: `diag_out`. -/
def State.diagOut (s : State) : Bool := s.diag

/-- Rule R36: `counter_out[15:0]`, for compare channel A outside the block (rule R186). -/
def State.counterOut (s : State) : Ticks := s.counter

end Sys2Proof.Machine
end

