-- ==== Sys2Proof/Machine/Operands.lean ====
section
/-! DEFINITION. The operands of the commands: the channel number (rules R93, R102) and the pulse width of an
angle (rule R120). -/

namespace Sys2Proof.Machine

/-- Rules R93, R102: the channel a CH field names, or none for `N_CH` (16) to 255; it never wraps. -/
def channelNumber (p : Params) (ch : BitVec 8) : Option ChannelIx :=
  if h : ch.toNat < numChannels then
    if ch.toNat < p.set.nCh then some ⟨ch.toNat, h⟩ else none
  else none

/-- Rules R120, R121: the angle the map is applied to. -/
def effAngle (p : Params) (clamp : Bool) (angle : BitVec 8) : Nat :=
  if clamp then min angle.toNat p.set.angleSpan else angle.toNat

/-- Rule R120: the pulse width in microseconds. -/
def pulseUs (p : Params) (clamp : Bool) (angle : BitVec 8) : Nat :=
  linearMap (effAngle p clamp angle) 0 p.set.angleSpan p.set.minPulseUs p.set.maxPulseUs

/-- Rule R120: the pulse width in ticks, an unbounded integer. -/
def pulseTicks (p : Params) (clamp : Bool) (angle : BitVec 8) : Nat :=
  ticksFromUs p.set.tickNum p.set.tickDen (pulseUs p clamp angle)

end Sys2Proof.Machine
end

