-- ==== Sys2Proof/Machine/Commands.lean ====
section
/-! DEFINITION. The commands (rules R100 to R128). Each is performed by the CMD write that carries its word, so
each is answered as a write (rule R201); the meanings of the four command rows are that write with the
command's own word. -/

namespace Sys2Proof.Machine

/-- Rule R105: `Nop()`. -/
def State.opNop (s : State) : State := s

/-- Rule R106, one channel: countdown and period as after reset; level and direction stay. -/
def Channel.deactivate (p : Params) (c : Channel) : Channel :=
  { c with countdown := refreshTicks p, period := Config.inactiveSentinel }

/-- Rule R106: `Init()`. -/
def State.opInit (s : State) : State :=
  { s with chans := updateAll (Channel.deactivate s.params) s.chans }

/-- Rules R102, R122, R123: `SetAngle(w, ch, deg)`. -/
def State.opSetAngle (s : State) (w : Word) (ch angle : BitVec 8) : State :=
  match channelNumber s.params ch with
  | none => s.raiseCmdError .channel w
  | some i =>
    if 0xFFFF ≤ pulseTicks s.params s.clamp angle then s.raiseCmdError .period w
    else s.arm i (BitVec.ofNat 16 (pulseTicks s.params s.clamp angle))

/-- Rules R102, R128: `SetPeriod(w, ch, t)`. -/
def State.opSetPeriod (s : State) (w : Word) (ch : BitVec 8) (ticks : Ticks) : State :=
  match channelNumber s.params ch with
  | none => s.raiseCmdError .channel w
  | some i =>
    if ticks = Config.inactiveSentinel then s.raiseCmdError .period w
    else s.arm i ticks

/-- Rule R100: `ExecuteCommand(w)`. -/
def State.executeCommand (s : State) (w : Word) : State :=
  match decodeCommand w with
  | .error _ => s.raiseCmdError .illegal w
  | .ok .nop => s.opNop
  | .ok .init => s.opInit
  | .ok (.setAngle ch angle) => s.opSetAngle w ch angle
  | .ok (.setPeriod ch ticks) => s.opSetPeriod w ch ticks

/-- NOP (rule R105). -/
def execNop (s : State) : Host.Outcome State Fault Refusal :=
  .next s.opNop.answerWrite

/-- INIT (rule R106). -/
def execInit (s : State) : Host.Outcome State Fault Refusal :=
  .next s.opInit.answerWrite

/-- SET_ANGLE (rule R122). -/
def execSetAngle (ch angle : BitVec 8) (s : State) : Host.Outcome State Fault Refusal :=
  .next (s.opSetAngle (setAngleWord ch angle) ch angle).answerWrite

/-- SET_PERIOD (rule R128). -/
def execSetPeriod (ch : BitVec 8) (ticks : Ticks) (s : State) : Host.Outcome State Fault Refusal :=
  .next (s.opSetPeriod (setPeriodWord ch ticks) ch ticks).answerWrite

/-- WR_CMD (rule R69). -/
def execWrCmd (w : Word) (s : State) : Host.Outcome State Fault Refusal :=
  .next (s.executeCommand w).answerWrite

end Sys2Proof.Machine
end

