-- ==== Sys2Proof/Machine/Flags.lean ====
section
/-! DEFINITION. The registers as the host reads them (rules R73 to R81), the register map (rule R51) and the
write-1-to-clear of STATUS (rule R66). -/

namespace Sys2Proof.Machine

/-- Bits as a number, the first of the list the least significant. -/
def packBits : List Bool → Nat
  | [] => 0
  | b :: bs => b.toNat + 2 * packBits bs

/-- Rule R74: CTRL as it reads. -/
def State.ctrlWord (s : State) : Word :=
  BitVec.ofNat 32 (packBits [s.en, s.diagEn, s.clamp])

/-- Rule R75: STATUS as it reads. -/
def State.statusWord (s : State) : Word :=
  BitVec.ofNat 32 (packBits [s.pending, s.errIllegal, s.errChannel, s.errPeriod, s.errBus, s.diag])

/-- Rule R80: PINS as it reads, levels in bits 15..0 and directions in bits 31..16. -/
def State.pinsWord (s : State) : Word :=
  BitVec.ofNat 32 (packBits (s.chans.toList.map Channel.level ++ s.chans.toList.map Channel.dir))

/-- Rule R81: CH[i] as it reads. In a build with fewer channels its place is unmapped (rule R55; DEDUCED,
assumption 3). -/
def State.channelWord (s : State) (i : ChannelIx) : Word :=
  if i.val < s.params.set.nCh then (s.channel i).period ++ (s.channel i).countdown else 0

/-- A 16-bit register as it reads (rules R77 to R79). -/
def ticksWord (t : Ticks) : Word := t.setWidth 32

/-- Rule R51: the word the register map shows at an aligned offset; CMD and the unmapped offsets show 0
(rules R55, R73). -/
def State.windowWord (s : State) (off : Nat) : Word :=
  if off = 0x04 then s.ctrlWord
  else if off = 0x08 then s.statusWord
  else if off = 0x0C then s.errcmd
  else if off = 0x10 then ticksWord s.counter
  else if off = 0x14 then ticksWord s.compare
  else if off = 0x18 then ticksWord s.elapsed
  else if off = 0x1C then s.pinsWord
  else if 0x40 ≤ off ∧ off ≤ 0x7C then s.channelWord (Fin.ofNat numChannels ((off - 0x40) / 4))
  else 0

/-- Rule R52: the byte of the register window at a byte offset, as a host names the bytes of a word it
has read whole. -/
def State.windowByte (s : State) (off : Nat) : Byte :=
  (s.windowWord (off - off % 4)).extractLsb' (8 * (off % 4)) 8

/-- Rule R66: STATUS bits written with 1 are cleared; bit 5 and bits 31..6 are ignored. -/
def State.clearStatus (s : State) (v : Word) : State :=
  { s with
    pending := s.pending && !v.getLsbD 0
    pendAge := if v.getLsbD 0 then 0 else s.pendAge
    errIllegal := s.errIllegal && !v.getLsbD 1
    errChannel := s.errChannel && !v.getLsbD 2
    errPeriod := s.errPeriod && !v.getLsbD 3
    errBus := s.errBus && !v.getLsbD 4 }

/-- Rule R68: CTRL is set from bits 2..0 and `pend_age` cleared. -/
def State.setCtrl (s : State) (v : Word) : State :=
  { s with en := v.getLsbD 0, diagEn := v.getLsbD 1, clamp := v.getLsbD 2, pendAge := 0 }

/-- Rule R67: COMPARE is set from bits 15..0; nothing else changes, PENDING neither. -/
def State.setCompare (s : State) (v : Word) : State :=
  { s with compare := v.extractLsb' 0 16 }

end Sys2Proof.Machine
end

