-- ==== Sys2Proof/Machine/RegisterReads.lean ====
section
/-! DEFINITION. The register reads (rules R55, R73 to R81). A read answers with the register's word and has no
side effect (rule R56). -/

namespace Sys2Proof.Machine

/-- RD_CMD (rule R73). -/
def execRdCmd (s : State) : Host.Outcome State Fault Refusal :=
  .next (s.answerRead 0)

/-- RD_CTRL (rule R74). -/
def execRdCtrl (s : State) : Host.Outcome State Fault Refusal :=
  .next (s.answerRead s.ctrlWord)

/-- RD_STATUS (rule R75). -/
def execRdStatus (s : State) : Host.Outcome State Fault Refusal :=
  .next (s.answerRead s.statusWord)

/-- RD_ERRCMD (rule R76). -/
def execRdErrcmd (s : State) : Host.Outcome State Fault Refusal :=
  .next (s.answerRead s.errcmd)

/-- RD_COUNTER (rule R77). -/
def execRdCounter (s : State) : Host.Outcome State Fault Refusal :=
  .next (s.answerRead (ticksWord s.counter))

/-- RD_COMPARE (rule R78). -/
def execRdCompare (s : State) : Host.Outcome State Fault Refusal :=
  .next (s.answerRead (ticksWord s.compare))

/-- RD_ELAPSED (rule R79). -/
def execRdElapsed (s : State) : Host.Outcome State Fault Refusal :=
  .next (s.answerRead (ticksWord s.elapsed))

/-- RD_PINS (rule R80). -/
def execRdPins (s : State) : Host.Outcome State Fault Refusal :=
  .next (s.answerRead s.pinsWord)

/-- RD_CH (rule R81). -/
def execRdCh (i : ChannelIx) (s : State) : Host.Outcome State Fault Refusal :=
  .next (s.answerRead (s.channelWord i))

/-- RD_UNMAPPED at 0x20..0x3C (rule R55): the offset holds nothing and reads 0. -/
def execRdUnmappedLow (_off : Byte) (s : State) : Host.Outcome State Fault Refusal :=
  .next (s.answerRead 0)

/-- RD_UNMAPPED at 0x80..0xFC (rule R55): the offset holds nothing and reads 0. -/
def execRdUnmappedHigh (_off : Byte) (s : State) : Host.Outcome State Fault Refusal :=
  .next (s.answerRead 0)

end Sys2Proof.Machine
end

