-- ==== Sys2Proof/Machine/RegisterWrites.lean ====
section
/-! DEFINITION. The register writes other than CMD's (rules R55, R66 to R68, R71). -/

namespace Sys2Proof.Machine

/-- WR_CTRL (rule R68). -/
def execWrCtrl (v : Word) (s : State) : Host.Outcome State Fault Refusal :=
  .next (s.setCtrl v).answerWrite

/-- WR_STATUS (rule R66). -/
def execWrStatus (v : Word) (s : State) : Host.Outcome State Fault Refusal :=
  .next (s.clearStatus v).answerWrite

/-- WR_COMPARE (rule R67). -/
def execWrCompare (v : Word) (s : State) : Host.Outcome State Fault Refusal :=
  .next (s.setCompare v).answerWrite

/-- WR_ERRCMD (rule R71): a read-only register, the write is ignored without error. -/
def execWrErrcmd (_v : Word) (s : State) : Host.Outcome State Fault Refusal :=
  .next s.answerWrite

/-- WR_COUNTER (rule R71): a read-only register, the write is ignored without error. -/
def execWrCounter (_v : Word) (s : State) : Host.Outcome State Fault Refusal :=
  .next s.answerWrite

/-- WR_ELAPSED (rule R71): a read-only register, the write is ignored without error. -/
def execWrElapsed (_v : Word) (s : State) : Host.Outcome State Fault Refusal :=
  .next s.answerWrite

/-- WR_PINS (rule R71): a read-only register, the write is ignored without error. -/
def execWrPins (_v : Word) (s : State) : Host.Outcome State Fault Refusal :=
  .next s.answerWrite

/-- WR_CH (rule R71): a read-only register, the write is ignored without error. -/
def execWrCh (_i : ChannelIx) (_v : Word) (s : State) : Host.Outcome State Fault Refusal :=
  .next s.answerWrite

/-- WR_UNMAPPED at 0x20..0x3C (rule R55): the write is ignored without error. -/
def execWrUnmappedLow (_off : Byte) (_v : Word) (s : State) : Host.Outcome State Fault Refusal :=
  .next s.answerWrite

/-- WR_UNMAPPED at 0x80..0xFC (rule R55): the write is ignored without error. -/
def execWrUnmappedHigh (_off : Byte) (_v : Word) (s : State) : Host.Outcome State Fault Refusal :=
  .next s.answerWrite

end Sys2Proof.Machine
end

