-- ==== Sys2Proof/Machine/Dispatch.lean ====
section
/-! DEFINITION. What each operation of the table does, as the one transaction it is performed in (rule R60).
That a due DISPATCH goes before it is the arbitration's affair (Machine/Arbiter.lean, rule R61). -/

namespace Sys2Proof.Machine

def exec (i : Instr) (s : State) : Host.Outcome State Fault Refusal :=
  match i with
  | .nop => Sys2Proof.Machine.execNop s
  | .init => Sys2Proof.Machine.execInit s
  | .setAngle ch angle => Sys2Proof.Machine.execSetAngle ch angle s
  | .setPeriod ch ticks => Sys2Proof.Machine.execSetPeriod ch ticks s
  | .rdCmd => Sys2Proof.Machine.execRdCmd s
  | .wrCmd w => Sys2Proof.Machine.execWrCmd w s
  | .rdCtrl => Sys2Proof.Machine.execRdCtrl s
  | .wrCtrl v => Sys2Proof.Machine.execWrCtrl v s
  | .rdStatus => Sys2Proof.Machine.execRdStatus s
  | .wrStatus v => Sys2Proof.Machine.execWrStatus v s
  | .rdErrcmd => Sys2Proof.Machine.execRdErrcmd s
  | .wrErrcmd v => Sys2Proof.Machine.execWrErrcmd v s
  | .rdCounter => Sys2Proof.Machine.execRdCounter s
  | .wrCounter v => Sys2Proof.Machine.execWrCounter v s
  | .rdCompare => Sys2Proof.Machine.execRdCompare s
  | .wrCompare v => Sys2Proof.Machine.execWrCompare v s
  | .rdElapsed => Sys2Proof.Machine.execRdElapsed s
  | .wrElapsed v => Sys2Proof.Machine.execWrElapsed v s
  | .rdPins => Sys2Proof.Machine.execRdPins s
  | .wrPins v => Sys2Proof.Machine.execWrPins v s
  | .rdCh ch => Sys2Proof.Machine.execRdCh ch s
  | .wrCh ch v => Sys2Proof.Machine.execWrCh ch v s
  | .rdUnmappedLow off => Sys2Proof.Machine.execRdUnmappedLow off s
  | .wrUnmappedLow off v => Sys2Proof.Machine.execWrUnmappedLow off v s
  | .rdUnmappedHigh off => Sys2Proof.Machine.execRdUnmappedHigh off s
  | .wrUnmappedHigh off v => Sys2Proof.Machine.execWrUnmappedHigh off v s

end Sys2Proof.Machine
end

