-- ==== Sys2Proof/Machine/Access.lean ====
section
/-! DEFINITION. A host access at its turn. -/

namespace Sys2Proof.Machine

/-- The operation the access's key decodes to, or a bus error before anything else (rules R54, R208). -/
def performAccess (a : BusAccess) (s : State) : Host.Outcome State Fault Refusal :=
  match decodeAccess a with
  | .ok i => exec i s
  | .error _ => .next (s.raiseBusError a)

end Sys2Proof.Machine
end

