-- ==== Sys2Proof/Machine/Scheduler.lean ====
section
/-! DEFINITION. The Pulse-Edge Scheduler: TICK (rule R143) and DISPATCH (rule R148), each one atomic step of
its own agent (rules R10, R60). DISPATCH is the entry to the handling of the block's one event and its
end the return: it saves nothing and restores nothing (rules R157, R205). -/

namespace Sys2Proof.Machine

/-- Rule R146: a DISPATCH is due. -/
def State.due (s : State) : Bool := s.en && s.pending

/-- Rules R146, R235: a due DISPATCH is enabled. Without the tick input none occurs, for the dispatch agent
is stuck (93_implementation_defined.md S12). -/
def State.dispatchEnabled (s : State) : Bool := s.due && s.ticking

/-- TICK (rule R143). The match (rule R144) is tested on the new COUNTER, and `pend_age` counts the tick
only where an earlier match was due before it. -/
def State.tick (s : State) : State :=
  { s with
    pendAge := if s.due then min (s.pendAge + 1) (s.params.set.dispatchLatencyMax + 1) else s.pendAge
    counter := s.counter + 1
    pending := s.pending || (s.counter + 1 == s.compare) }

/-- Step 3 of DISPATCH for one channel (rules R148, R150, R151): an active channel's countdown is reduced
by `e` modulo 2^16; below the threshold the latch toggles and the countdown is reloaded. -/
def Channel.drain (p : Params) (e : Ticks) (c : Channel) : Channel :=
  if c.active then
    if (c.countdown - e).toNat < p.set.toggleThreshold then
      if c.level then { c with level := false, countdown := refreshTicks p }
      else { c with level := true, countdown := c.period }
    else { c with countdown := c.countdown - e }
  else c

/-- One channel's part in the minimum of step 3c: inactive channels take none (rule R152). -/
def minDelay (nd : Delay) (c : Channel) : Delay :=
  if c.active ∧ c.countdown.setWidth 17 < nd then c.countdown.setWidth 17 else nd

/-- Steps 2 and 3c (rules R34, R152): the smallest active countdown, or the idle sentinel. -/
def nextDelay (cs : Channels) : Delay := cs.toList.foldl minDelay Config.idleSentinel

/-- Step 5's compare advance (rule R155). -/
def compareAdvance (p : Params) (nd : Delay) : Ticks :=
  if nd = Config.idleSentinel then heartbeatStep p
  else if nd.toNat < p.set.coalesceWindow then
    if nd.toNat < p.set.nearMissEps then nd.setWidth 16 + nearMissEps p else nd.setWidth 16
  else coalesceWindow p

/-- Step 5's ELAPSED for the next DISPATCH (rule R155): the near-miss epsilon is not in it (decision D18). -/
def nextElapsed (p : Params) (nd : Delay) : Ticks :=
  if nd = Config.idleSentinel then heartbeatStep p
  else if nd.toNat < p.set.coalesceWindow then nd.setWidth 16
  else coalesceWindow p

/-- Step 4's condition (rule R154); a build without the diagnostic omits the step. -/
def diagToggles (s : State) (nd : Delay) : Bool :=
  s.params.set.diagPresent && s.diagEn && decide (nd.toNat < s.params.set.nearMissEps)

/-- The channel table a DISPATCH leaves (step 3): every channel drained by the one ELAPSED. -/
def State.drainedChannels (s : State) : Channels := updateAll (Channel.drain s.params s.elapsed) s.chans

/-- DISPATCH (rule R148). -/
def State.dispatch (s : State) : State :=
  let cs := s.drainedChannels
  let nd := nextDelay cs
  { s with
    chans := cs
    pending := false
    pendAge := 0
    diag := if diagToggles s nd then !s.diag else s.diag
    compare := s.compare + compareAdvance s.params nd
    elapsed := nextElapsed s.params nd }

end Sys2Proof.Machine
end

