-- ==== Sys2Proof/Machine/Arbiter.lean ====
section
/-! DEFINITION. Which agent steps next (rules R10, R61, R62, R146, R208) and reset (rule R230). -/

namespace Sys2Proof.Machine

/-- Rule R146: a TICK may go before the due DISPATCH only while `pend_age` is below the bound. -/
def State.tickMayOvertake (s : State) : Bool := decide (s.pendAge < s.params.set.dispatchLatencyMax)

/-- The next transaction. An enabled DISPATCH goes before any host access, which stays listed (rule R61),
and before a tick unless the tick overtakes it within the latency bound (rules R146, R208). Whether it
goes before a reset, or before the tick input stops, the spec does not say: the listed flag does
(DESIGN CHOICE, safe, assumptions 8, 21). Without the tick input no TICK and no DISPATCH occurs, and host
accesses go on while no DISPATCH is due (rule R235, S12). -/
def State.nextTurn (s : State) : Turn :=
  match s.events with
  | .reset overtakes :: _ => if s.dispatchEnabled && !overtakes then .dispatch else .reset
  | .tickStops overtakes :: _ => if s.dispatchEnabled && !overtakes then .dispatch else .tickStops
  | .tick overtakes :: _ =>
    if !s.ticking then .stuck
    else if s.due && !(overtakes && s.tickMayOvertake) then .dispatch else .tick
  | .access a :: _ => if s.dispatchEnabled then .dispatch else if s.due then .stuck else .access a
  | [] => if s.dispatchEnabled then .dispatch else if s.ticking then .tick else .stuck

/-- The listed event is taken off the list, as its transaction is performed. -/
def State.takeEvent (s : State) : State := { s with events := s.events.tail }

/-- Rule R230: reset is asserted and released. Every piece of rule R20's state takes its value of rule
R39; the parameters are no state, and what is listed next is held meanwhile. The tick input runs from
release on, and its return after a stop is a reset (rule R214). -/
def State.applyReset (s : State) : State :=
  { State.resetWith s.params with events := s.events }

/-- Rule R235: the tick input stops. Every register is kept (rule R214 puts what else may happen to the state
outside the block; DEDUCED, unsafe, assumption 22). -/
def State.stopTicks (s : State) : State := { s with ticking := false }

/-- A host access is listed as the next event, and a DISPATCH that would go first is dropped, so that the
access is the very next transaction (assumption 11). -/
def State.present (s : State) (a : BusAccess) : State :=
  { s with
    events := .access a :: s.events
    pending := s.pending && !s.en
    pendAge := if s.due then 0 else s.pendAge }

end Sys2Proof.Machine
end

