-- ==== Sys2Proof/Machine/Step.lean ====
section
/-! DEFINITION. One step of the block: one atomic transaction of one agent (rules R10, R60). -/

namespace Sys2Proof.Machine

/-- One step: the transaction the arbitration lets happen next. -/
def step (s : State) : Host.Outcome State Fault Refusal :=
  match s.nextTurn with
  | .reset => .next s.takeEvent.applyReset
  | .tickStops => .next s.takeEvent.stopTicks
  | .tick => .next s.takeEvent.tick
  | .dispatch => .next s.dispatch
  | .access a => performAccess a s.takeEvent
  | .stuck => .fault .noStepEnabled

/-- The operation of an opcode-table word is presented as the next host access (assumptions 4, 11). -/
def State.withFetchWord (s : State) (nbits w : Nat) : State := s.present (tableAccess nbits w)

end Sys2Proof.Machine
end

