-- ==== Sys2Proof/Safety.lean ====
section
/-! DEFINITION. What the claims about runs say: the premises of rules R160 and R162 and the invariants that
every step keeps. -/

namespace Sys2Proof.Machine

/-- The premise of rule R160. -/
def RefreshCoversSteps (p : Params) : Prop :=
  p.set.heartbeatStep ≤ p.set.refreshTicks ∧ p.set.coalesceWindow ≤ p.set.refreshTicks

/-- Rule R160's invariant: ELAPSED is the heartbeat step or at most the coalescing window, an inactive
channel's countdown is `REFRESH_TICKS`, and an active one's covers ELAPSED. -/
def CountdownsCoverElapsed (s : State) : Prop :=
  (s.elapsed = heartbeatStep s.params ∨ s.elapsed.toNat ≤ s.params.set.coalesceWindow) ∧
  ∀ i : ChannelIx,
    ((s.channel i).period = 0xFFFF#16 → (s.channel i).countdown = refreshTicks s.params) ∧
    ((s.channel i).period ≠ 0xFFFF#16 → s.elapsed.toNat ≤ (s.channel i).countdown.toNat)

/-- Rules R29 and R146: `pend_age` stays within the latency bound, and counts only while a DISPATCH is
due. -/
def LatencyWithinBound (s : State) : Prop :=
  s.pendAge ≤ s.params.set.dispatchLatencyMax ∧ ((s.en && s.pending) = false → s.pendAge = 0)

/-- Rule R154: in a build without the diagnostic, `diag` is 0. -/
def DiagnosticAbsentIsLow (s : State) : Prop :=
  s.params.set.diagPresent = false → s.diag = false

/-- The premise of rule R162 on the parameters. Its second half is the model's addition (assumption 16):
with a larger epsilon the near-miss advance itself can wrap. -/
def LatencyBelowAdvances (p : Params) : Prop :=
  (p.set.dispatchLatencyMax < p.set.nearMissEps ∧
    p.set.dispatchLatencyMax < p.set.coalesceWindow ∧
    p.set.dispatchLatencyMax < p.set.heartbeatStep) ∧
  p.set.nearMissEps ≤ 0x8000

/-- A premise of rule R162 on a step: it is no host write of COMPARE. -/
def WritesNoCompare (s : State) : Prop :=
  ∀ a v, s.nextTurn = .access a → decodeAccess a ≠ .ok (.wrCompare v)

/-- Rules R162, R163: the most ticks to the next match that the last programmed advance leaves: ELAPSED, and
`NEAR_MISS_EPS` more where ELAPSED is below it. -/
def scheduledAdvance (s : State) : Nat :=
  s.elapsed.toNat + if s.elapsed.toNat < s.params.set.nearMissEps then s.params.set.nearMissEps else 0

/-- Rule R162 as an invariant: dispatching is enabled; a pending match is `pend_age` ticks behind COUNTER;
with none pending, COMPARE is ahead of COUNTER, by no more than the advance last programmed, so that
the match is not missed. -/
def MatchOnSchedule (s : State) : Prop :=
  s.en = true ∧
  s.pendAge ≤ s.params.set.dispatchLatencyMax ∧
  (s.pending = true → s.counter = s.compare + BitVec.ofNat 16 s.pendAge) ∧
  (s.pending = false → s.pendAge = 0 ∧ 0 < (s.compare - s.counter).toNat ∧
    (s.compare - s.counter).toNat ≤ scheduledAdvance s)

/-- `m` is the smallest countdown of an active channel. -/
def IsLeastActive (s : State) (m : Nat) : Prop :=
  (∃ i : ChannelIx, (s.channel i).period ≠ 0xFFFF#16 ∧ (s.channel i).countdown.toNat = m) ∧
  ∀ i : ChannelIx, (s.channel i).period ≠ 0xFFFF#16 → m ≤ (s.channel i).countdown.toNat

/-- The next transaction of `s` is a write of the word `w` to CMD (rule R69). -/
def WritesCommand (s : State) (w : Word) : Prop := s.nextTurn = .access (.write 0x00 4 w)

end Sys2Proof.Machine
end

