-- ==== Sys2Proof/Certificates/Slice0/Obligations.lean ====
section
/-! DEFINITION. The statements about the block, in the order of the spec's files. Each says what a step or an
operation does as a whole next state, so that its frame is part of it: `{ s with … }` leaves every field
it does not name as it was. The block has no memory beside its registers (rules R9, R50), so no frame
speaks of memory. What a host access is answered with stands in the model's field `response`
(assumption 7). -/

open Sys2Proof Sys2Proof.Machine

/-! ## Reset and parameters -/

/-- Rule R39: the reset values, for every legal parameter set. The fields after `diag` are the model's
own (assumptions 5 and 7). -/
def Obligations.ResetValuesOfEveryRegister : Prop :=
  ∀ p : Params,
    (∀ i : ChannelIx, (State.resetWith p).channel i =
      { countdown := BitVec.ofNat 16 (p.set.refreshUs * p.set.tickNum / p.set.tickDen)
        period := 0xFFFF#16, level := false, dir := false }) ∧
    (State.resetWith p).counter = 0 ∧
    (State.resetWith p).compare = BitVec.ofNat 16 p.set.heartbeatStep ∧
    (State.resetWith p).elapsed = BitVec.ofNat 16 p.set.heartbeatStep ∧
    (State.resetWith p).pending = false ∧ (State.resetWith p).pendAge = 0 ∧
    (State.resetWith p).en = false ∧ (State.resetWith p).diagEn = false ∧
    (State.resetWith p).clamp = true ∧
    (State.resetWith p).errIllegal = false ∧ (State.resetWith p).errChannel = false ∧
    (State.resetWith p).errPeriod = false ∧ (State.resetWith p).errBus = false ∧
    (State.resetWith p).errcmd = 0 ∧ (State.resetWith p).diag = false

/-- Rule R230, with reset as one event of the model's list (assumption 8): at its turn it leaves the
reset values, and what is listed after it is held and stays listed. Where a DISPATCH is enabled, the
spec gives no order, and the listed flag says which goes first (assumption 8). -/
def Obligations.ResetEventRestoresResetValues : Prop :=
  ∀ (s : State) (overtakes : Bool) (rest : List Event), s.events = .reset overtakes :: rest →
    (overtakes = true ∨ s.en = false ∨ s.pending = false ∨ s.ticking = false → Machine.step s =
      .next { State.resetWith s.params with events := rest }) ∧
    (overtakes = false → s.en = true → s.pending = true → s.ticking = true →
      s.nextTurn = .dispatch ∧ ∃ t, Machine.step s = .next t ∧ t.events = .reset overtakes :: rest)

/-- Rule R231, over the model's own event list (assumption 5): with nothing else asked for, COUNTER
counts the ticks from release of reset and the first match comes exactly at the tick numbered
HEARTBEAT_STEP. -/
def Obligations.FirstMatchAfterHeartbeatTicks : Prop :=
  ∀ (p : Params) (k : Nat), k ≤ p.set.heartbeatStep →
    ∃ t : State, Host.Core.run Sys2Proof.core k (State.resetWith p) = .next t ∧
      t.counter = BitVec.ofNat 16 k ∧ t.pending = decide (k = p.set.heartbeatStep) ∧
      t.chans = (State.resetWith p).chans

/-- Rule R5: the parameters are build-time constants; no step changes them. -/
def Obligations.NoStepChangesParameters : Prop :=
  ∀ s t : State, Machine.step s = .next t → t.params = s.params

/-! ## Register reads -/

/-- Rules R73 to R79: the plain register reads, each whole: the access that is the read, and its answer.
-/
def Obligations.RegisterReadsReturnRegisters : Prop :=
  ∀ s : State,
    performAccess (.read 0x00 4) s = exec .rdCmd s ∧ performAccess (.read 0x04 4) s = exec .rdCtrl s ∧
    performAccess (.read 0x08 4) s = exec .rdStatus s ∧
    performAccess (.read 0x0C 4) s = exec .rdErrcmd s ∧
    performAccess (.read 0x10 4) s = exec .rdCounter s ∧
    performAccess (.read 0x14 4) s = exec .rdCompare s ∧
    performAccess (.read 0x18 4) s = exec .rdElapsed s ∧
    exec .rdCmd s = .next { s with response := some (.read false 0) } ∧
    exec .rdCtrl s = .next { s with response := some (.read false
      ((BitVec.ofBool s.clamp ++ BitVec.ofBool s.diagEn ++ BitVec.ofBool s.en).setWidth 32)) } ∧
    exec .rdStatus s = .next { s with response := some (.read false
      ((BitVec.ofBool s.diag ++ BitVec.ofBool s.errBus ++ BitVec.ofBool s.errPeriod ++
        BitVec.ofBool s.errChannel ++ BitVec.ofBool s.errIllegal ++
        BitVec.ofBool s.pending).setWidth 32)) } ∧
    exec .rdErrcmd s = .next { s with response := some (.read false s.errcmd) } ∧
    exec .rdCounter s = .next { s with response := some (.read false (s.counter.setWidth 32)) } ∧
    exec .rdCompare s = .next { s with response := some (.read false (s.compare.setWidth 32)) } ∧
    exec .rdElapsed s = .next { s with response := some (.read false (s.elapsed.setWidth 32)) }

/-- Rule R80: bit `i` of PINS is `level[i]` and bit `16 + i` is `dir[i]`. -/
def Obligations.PinsReadLevelsAndDirections : Prop :=
  ∀ s : State, performAccess (.read 0x1C 4) s = exec .rdPins s ∧ ∃ v : Word,
    exec .rdPins s = .next { s with response := some (.read false v) } ∧
    ∀ i : ChannelIx, v.getLsbD i.val = (s.channel i).level ∧
      v.getLsbD (16 + i.val) = (s.channel i).dir

/-- Rule R81, for the channels of the build (`N_CH` is 16, rule R5). -/
def Obligations.ChannelReadsPeriodAndCountdown : Prop :=
  ∀ (s : State) (i : ChannelIx),
    performAccess (.read (0x40 + 4 * i.val) 4) s = exec (.rdCh i) s ∧
    (i.val < s.params.set.nCh → exec (.rdCh i) s = .next { s with response := some (.read false
      ((s.channel i).period ++ (s.channel i).countdown)) })

/-- Rule R55: an unmapped offset reads 0 and ignores writes, without error. -/
def Obligations.UnmappedReadsZeroIgnoresWrites : Prop :=
  ∀ (s : State) (off : Byte) (v : Word),
    exec (.rdUnmappedLow off) s = .next { s with response := some (.read false 0) } ∧
    exec (.rdUnmappedHigh off) s = .next { s with response := some (.read false 0) } ∧
    exec (.wrUnmappedLow off v) s = .next { s with response := some (.write false) } ∧
    exec (.wrUnmappedHigh off v) s = .next { s with response := some (.write false) } ∧
    ∀ o : Nat, o % 4 = 0 → (0x20 ≤ o ∧ o ≤ 0x3C) ∨ (0x80 ≤ o ∧ o ≤ 0xFC) →
      performAccess (.read o 4) s = .next { s with response := some (.read false 0) } ∧
      performAccess (.write o 4 v) s = .next { s with response := some (.write false) }

/-- Rules R51, R55, R56: every legal read, at its turn, answers the word the register map shows at its
offset and changes nothing else. In a build with fewer than 16 channels the place of a missing one reads
0 (the model's reading, assumption 3). -/
def Obligations.LegalReadShowsRegisterMap : Prop :=
  ∀ s : State,
    (∀ off : Nat, off % 4 = 0 → off ≤ 0xFC →
      performAccess (.read off 4) s =
        .next { s with response := some (.read false (s.windowWord off)) }) ∧
    ∀ i : ChannelIx, s.params.set.nCh ≤ i.val →
      exec (.rdCh i) s = .next { s with response := some (.read false 0) }

/-! ## Register writes -/

/-- Rule R66, bit by bit. -/
def Obligations.StatusWriteClearsOnesWritten : Prop :=
  ∀ (s : State) (v : Word), performAccess (.write 0x08 4 v) s = exec (.wrStatus v) s ∧
    exec (.wrStatus v) s = .next { s with
    pending := if v.getLsbD 0 = true then false else s.pending
    pendAge := if v.getLsbD 0 = true then 0 else s.pendAge
    errIllegal := if v.getLsbD 1 = true then false else s.errIllegal
    errChannel := if v.getLsbD 2 = true then false else s.errChannel
    errPeriod := if v.getLsbD 3 = true then false else s.errPeriod
    errBus := if v.getLsbD 4 = true then false else s.errBus
    response := some (.write false) }

/-- Rule R67. -/
def Obligations.CompareWriteTakesLowHalf : Prop :=
  ∀ (s : State) (v : Word),
    performAccess (.write 0x14 4 v) s = exec (.wrCompare v) s ∧
    exec (.wrCompare v) s = .next { s with
      compare := v.extractLsb' 0 16, response := some (.write false) }

/-- Rule R68. -/
def Obligations.CtrlWriteSetsThreeBits : Prop :=
  ∀ (s : State) (v : Word),
    performAccess (.write 0x04 4 v) s = exec (.wrCtrl v) s ∧
    exec (.wrCtrl v) s = .next { s with
      en := v.getLsbD 0, diagEn := v.getLsbD 1, clamp := v.getLsbD 2, pendAge := 0,
      response := some (.write false) }

/-- Rule R71. -/
def Obligations.ReadOnlyRegistersIgnoreWrites : Prop :=
  ∀ (s : State) (v : Word) (i : ChannelIx),
    performAccess (.write 0x0C 4 v) s = exec (.wrErrcmd v) s ∧
    performAccess (.write 0x10 4 v) s = exec (.wrCounter v) s ∧
    performAccess (.write 0x18 4 v) s = exec (.wrElapsed v) s ∧
    performAccess (.write 0x1C 4 v) s = exec (.wrPins v) s ∧
    performAccess (.write (0x40 + 4 * i.val) 4 v) s = exec (.wrCh i v) s ∧
    exec (.wrErrcmd v) s = .next { s with response := some (.write false) } ∧
    exec (.wrCounter v) s = .next { s with response := some (.write false) } ∧
    exec (.wrElapsed v) s = .next { s with response := some (.write false) } ∧
    exec (.wrPins v) s = .next { s with response := some (.write false) } ∧
    exec (.wrCh i v) s = .next { s with response := some (.write false) }

/-! ## Bus accesses -/

/-- Rules R53, R54: an access has an operation exactly when it is legal. -/
def Obligations.LegalAccessesAreTheAlignedWords : Prop :=
  ∀ (off n : Nat) (v : Word),
    ((∃ i, decodeAccess (.read off n) = .ok i) ↔ n = 4 ∧ off % 4 = 0 ∧ off ≤ 0xFC) ∧
    ((∃ i, decodeAccess (.write off n v) = .ok i) ↔ n = 4 ∧ off % 4 = 0 ∧ off ≤ 0xFC)

/-- Rules R54, R203: an illegal access is answered with an error response and sets ERR_BUS; nothing else
changes, and a read so answered returns data 0. -/
def Obligations.IllegalAccessRaisesBusError : Prop :=
  ∀ (s : State) (off n : Nat) (v : Word), n ≠ 4 ∨ off % 4 ≠ 0 ∨ 0xFC < off →
    performAccess (.read off n) s =
      .next { s with errBus := true, response := some (.read true 0) } ∧
    performAccess (.write off n v) s =
      .next { s with errBus := true, response := some (.write true) }

/-! ## Encodings -/

/-- Words and keys of the spec's own examples decode to what it names (95_test_vectors.md L2.1, L2.3).
-/
def Obligations.ExampleWordsAndKeysDecode : Prop :=
  decodeCommand 0x00000000#32 = .ok .nop ∧
  decodeCommand 0x10000000#32 = .ok .init ∧
  decodeCommand 0x2003005A#32 = .ok (.setAngle 3 90) ∧
  decodeCommand 0x20FF00FF#32 = .ok (.setAngle 255 255) ∧
  decodeCommand 0x300503E8#32 = .ok (.setPeriod 5 1000) ∧
  decodeCommand 0x200301B4#32 = .error .reservedField ∧
  decodeCommand 0x40000000#32 = .error (.reservedOp 4) ∧
  decodeKey 0x37C#11 0 = .ok (.rdCh 15) ∧
  decodeKey 0x748#11 7 = .ok (.wrCh 2 7) ∧
  decodeKey 0x324#11 0 = .ok (.rdUnmappedLow 0x24) ∧
  decodeKey 0x3FC#11 0 = .ok (.rdUnmappedHigh 0xFC) ∧
  decodeKey 0x704#11 5 = .ok (.wrCtrl 5) ∧
  decodeKey 0x2FC#11 0 = .error .notWordWide ∧
  decodeKey 0x707#11 0 = .error .misaligned

/-- Rule R92: for every word, which of the five it is, and with which operands. -/
def Obligations.CommandDecodingIsExact : Prop :=
  ∀ w : Word,
    (decodeCommand w = .ok .nop ↔ w = 0x00000000#32) ∧
    (decodeCommand w = .ok .init ↔ w = 0x10000000#32) ∧
    (∀ ch angle : BitVec 8, decodeCommand w = .ok (.setAngle ch angle) ↔
      w = 0x20000000#32 ||| ch.setWidth 32 <<< 16 ||| angle.setWidth 32) ∧
    (∀ (ch : BitVec 8) (ticks : Ticks), decodeCommand w = .ok (.setPeriod ch ticks) ↔
      w = 0x30000000#32 ||| ch.setWidth 32 <<< 16 ||| ticks.setWidth 32)

/-- Rule R95: every legal key matches exactly one row, and every other key none. -/
def Obligations.LegalKeysMatchExactlyOneRow : Prop :=
  ∀ k : Key, (busRows.filter (BusRow.hits k)).length =
    if k.extractLsb' 8 2 = 3#2 ∧ k.extractLsb' 0 2 = 0#2 then 1 else 0

/-- Rules R91, R92, R95: decoding the encoding of a well-formed operation gives it back, with every
operand at every value its field admits. -/
def Obligations.DecodeOfEncodeIsIdentity : Prop :=
  ∀ i : Instr, i.wellFormed = true → decodeBytes (encode i) = .ok i

/-- Rules R92, R95, the other direction: bytes that decode are the encoding of what they decode to, so
that no two encodings stand for one operation. -/
def Obligations.EncodeOfDecodeIsIdentity : Prop :=
  ∀ (bs : List Byte) (i : Instr), decodeBytes bs = .ok i → i.wellFormed = true ∧ encode i = bs

/-! ## Commands -/

/-- Rules R69, R100: a write at offset 0x00 performs the command its word decodes to, and one whose word
decodes as ILLEGAL raises CmdError(ILLEGAL). -/
def Obligations.CmdWritePerformsItsCommand : Prop :=
  ∀ (s : State) (w : Word), performAccess (.write 0x00 4 w) s = exec (.wrCmd w) s ∧
    (∀ c : Command, decodeCommand w = .ok c → exec (.wrCmd w) s = exec c.toInstr s) ∧
    (∀ r : DecodeReject, decodeCommand w = .error r →
      exec (.wrCmd w) s = .next { s with
        errIllegal := true, errcmd := w, response := some (.write false) })

/-- Rule R101. -/
def Obligations.IllegalWordIsRejected : Prop :=
  ∀ (s : State) (w : Word) (r : DecodeReject), decodeCommand w = .error r →
    exec (.wrCmd w) s = .next { s with
      errIllegal := true, errcmd := w, response := some (.write false) }

/-- Rule R94: the words with a reserved OP, or with a bit set that their format requires to be 0, are
rejected with CmdError(ILLEGAL) when they are written to CMD. -/
def Obligations.ReservedEncodingsAreIllegal : Prop :=
  ∀ (s : State) (w : Word),
    0x4 ≤ w.toNat / 0x10000000 ∨
    (w.toNat / 0x10000000 ≤ 0x1 ∧ w.toNat % 0x10000000 ≠ 0) ∨
    (w.toNat / 0x10000000 = 0x2 ∧
      (w.toNat / 0x1000000 % 0x10 ≠ 0 ∨ w.toNat / 0x100 % 0x100 ≠ 0)) ∨
    (w.toNat / 0x10000000 = 0x3 ∧ w.toNat / 0x1000000 % 0x10 ≠ 0) →
    exec (.wrCmd w) s = .next { s with
      errIllegal := true, errcmd := w, response := some (.write false) }

/-- Rule R102, with `N_CH` for its 16: that a build with `N_CH` below 16 (rule R5) rejects the numbers
from `N_CH` to 15 too is the model's reading (assumption 3, DEDUCED). -/
def Obligations.MissingChannelIsRejected : Prop :=
  ∀ (s : State) (ch angle : BitVec 8) (ticks : Ticks), s.params.set.nCh ≤ ch.toNat →
    exec (.setAngle ch angle) s = .next { s with
      errChannel := true
      errcmd := 0x20000000#32 ||| ch.setWidth 32 <<< 16 ||| angle.setWidth 32
      response := some (.write false) } ∧
    exec (.setPeriod ch ticks) s = .next { s with
      errChannel := true
      errcmd := 0x30000000#32 ||| ch.setWidth 32 <<< 16 ||| ticks.setWidth 32
      response := some (.write false) }

/-- Rule R103: whatever word is written to CMD, either neither the error bits nor ERRCMD change, or
exactly one error bit is set, ERRCMD takes the word, and nothing else changes. -/
def Obligations.CommandRaisesAtMostOneError : Prop :=
  ∀ (s : State) (w : Word), ∃ t : State, exec (.wrCmd w) s = .next t ∧
    ((t.errIllegal = s.errIllegal ∧ t.errChannel = s.errChannel ∧ t.errPeriod = s.errPeriod ∧
      t.errBus = s.errBus ∧ t.errcmd = s.errcmd) ∨
     t = { s with errIllegal := true, errcmd := w, response := some (.write false) } ∨
     t = { s with errChannel := true, errcmd := w, response := some (.write false) } ∨
     t = { s with errPeriod := true, errcmd := w, response := some (.write false) })

/-- Rule R104: whatever word is written to CMD, the command completes and reaches only the channel table
without its levels, the directions, the three command error bits and ERRCMD. -/
def Obligations.CommandsLeaveSchedulerRegisters : Prop :=
  ∀ (s : State) (w : Word), ∃ t : State, exec (.wrCmd w) s = .next t ∧
    t = { s with
      chans := t.chans, errIllegal := t.errIllegal, errChannel := t.errChannel,
      errPeriod := t.errPeriod, errcmd := t.errcmd, response := some (.write false) } ∧
    ∀ i : ChannelIx, (t.channel i).level = (s.channel i).level

/-- Rule R105. -/
def Obligations.NopOnlyIsAnswered : Prop :=
  ∀ s : State, exec (.wrCmd 0x00000000#32) s = exec .nop s ∧
    exec .nop s = .next { s with response := some (.write false) }

/-- Rule R106: every channel is left inactive with the refresh countdown, its level and direction as
they were, and nothing else changes. -/
def Obligations.InitDeactivatesEveryChannel : Prop :=
  ∀ s : State, exec (.wrCmd 0x10000000#32) s = exec .init s ∧ ∃ t : State, exec .init s = .next t ∧
    t = { s with chans := t.chans, response := some (.write false) } ∧
    ∀ i : ChannelIx, t.channel i = { s.channel i with
      countdown := BitVec.ofNat 16
        (s.params.set.refreshUs * s.params.set.tickNum / s.params.set.tickDen)
      period := 0xFFFF#16 }

/-- Rules R120, R122: SET_ANGLE, whole, with the pulse width written out, and with `N_CH` for the rules'
16: that a build with `N_CH` below 16 (rule R5) rejects the numbers from `N_CH` to 15 too is the model's
reading (assumption 3, DEDUCED). -/
def Obligations.SetAngleStoresPulseWidth : Prop :=
  ∀ (s : State) (ch angle : BitVec 8),
    let word := 0x20000000#32 ||| ch.setWidth 32 <<< 16 ||| angle.setWidth 32
    let deg := if s.clamp = true then min angle.toNat s.params.set.angleSpan else angle.toNat
    let us := s.params.set.minPulseUs +
      deg * (s.params.set.maxPulseUs - s.params.set.minPulseUs) / s.params.set.angleSpan
    let ticks := us * s.params.set.tickNum / s.params.set.tickDen
    exec (.wrCmd word) s = exec (.setAngle ch angle) s ∧
    (s.params.set.nCh ≤ ch.toNat → exec (.setAngle ch angle) s = .next { s with
      errChannel := true, errcmd := word, response := some (.write false) }) ∧
    (ch.toNat < s.params.set.nCh → 0xFFFF ≤ ticks → exec (.setAngle ch angle) s = .next { s with
      errPeriod := true, errcmd := word, response := some (.write false) }) ∧
    ∀ i : ChannelIx, ch.toNat = i.val → i.val < s.params.set.nCh → ticks < 0xFFFF →
      ∃ t : State, exec (.setAngle ch angle) s = .next t ∧
        t = { s with chans := t.chans, response := some (.write false) } ∧
        t.channel i = { s.channel i with period := BitVec.ofNat 16 ticks, dir := true } ∧
        ∀ j : ChannelIx, j ≠ i → t.channel j = s.channel j

/-- Rule R121: with CLAMP = 1, an angle of ANGLE_SPAN or more is stored as the pulse width
`MAX_PULSE_US`, wherever that width can be stored. -/
def Obligations.ClampHoldsPulseAtMaximum : Prop :=
  ∀ (s : State) (ch angle : BitVec 8) (i : ChannelIx), ch.toNat = i.val → i.val < s.params.set.nCh →
    s.clamp = true → s.params.set.angleSpan ≤ angle.toNat →
    s.params.set.maxPulseUs * s.params.set.tickNum / s.params.set.tickDen < 0xFFFF →
    ∃ t : State, exec (.setAngle ch angle) s = .next t ∧
      (t.channel i).period.toNat =
        s.params.set.maxPulseUs * s.params.set.tickNum / s.params.set.tickDen

/-- The spec's inference R126 ("store the same period", marked derived there): a second SET_ANGLE with
the same operands, with no write to CTRL between them, stores the same period, whatever came between; a
rejected one (rule R123) stores none. -/
def Obligations.SetAngleIsIdempotentInPeriod : Prop :=
  ∀ (s t u v : State) (ch angle : BitVec 8) (i : ChannelIx), ch.toNat = i.val →
    i.val < s.params.set.nCh →
    exec (.setAngle ch angle) s = .next t →
    pulseTicks s.params s.clamp angle < 0xFFFF → u.params = s.params → u.clamp = s.clamp →
    exec (.setAngle ch angle) u = .next v →
    (v.channel i).period = (t.channel i).period

/-- Rule R128, whole, with `N_CH` for its 16: that a build with `N_CH` below 16 (rule R5) rejects the
numbers from `N_CH` to 15 too is the model's reading (assumption 3, DEDUCED). -/
def Obligations.SetPeriodStoresRawTicks : Prop :=
  ∀ (s : State) (ch : BitVec 8) (ticks : Ticks),
    let word := 0x30000000#32 ||| ch.setWidth 32 <<< 16 ||| ticks.setWidth 32
    exec (.wrCmd word) s = exec (.setPeriod ch ticks) s ∧
    (s.params.set.nCh ≤ ch.toNat → exec (.setPeriod ch ticks) s = .next { s with
      errChannel := true, errcmd := word, response := some (.write false) }) ∧
    (ch.toNat < s.params.set.nCh → ticks = 0xFFFF#16 → exec (.setPeriod ch ticks) s = .next { s with
      errPeriod := true, errcmd := word, response := some (.write false) }) ∧
    ∀ i : ChannelIx, ch.toNat = i.val → i.val < s.params.set.nCh → ticks ≠ 0xFFFF#16 →
      ∃ t : State, exec (.setPeriod ch ticks) s = .next t ∧
        t = { s with chans := t.chans, response := some (.write false) } ∧
        t.channel i = { s.channel i with period := ticks, dir := true } ∧
        ∀ j : ChannelIx, j ≠ i → t.channel j = s.channel j

/-! ## TICK and the compare match -/

/-- Rule R143: a TICK at its turn. What it does to the model's own event list is left open here. -/
def Obligations.TickCountsAndMatches : Prop :=
  ∀ s : State, s.nextTurn = .tick → ∃ t : State, Machine.step s = .next t ∧
    t = { s with
      pendAge := if s.pending = true ∧ s.en = true
        then min (s.pendAge + 1) (s.params.set.dispatchLatencyMax + 1) else s.pendAge
      counter := s.counter + 1
      pending := if s.counter + 1 = s.compare then true else s.pending
      events := t.events }

/-- Rule R144: PENDING is set by nothing but a tick that makes COUNTER equal to COMPARE, and such a tick
while it is set leaves it set. And rule R28's other side: it is cleared by nothing but a DISPATCH, a
host write of 1 to STATUS bit 0, and reset. -/
def Obligations.MatchFiresOnlyOnTickIntoEquality : Prop :=
  ∀ s t : State, Machine.step s = .next t →
    (s.pending = false → (t.pending = true ↔ s.nextTurn = .tick ∧ t.counter = s.compare)) ∧
    (s.pending = true → s.nextTurn = .tick → t.pending = true) ∧
    (s.pending = true → t.pending = false →
      s.nextTurn = .dispatch ∨ s.nextTurn = .reset ∨
      ∃ v, s.nextTurn = .access (.write 0x08 4 v) ∧ v.getLsbD 0 = true)

/-! ## Arbitration -/

/-- Rules R61, R146, R235, over the model's event list (assumptions 4, 5): a DISPATCH runs only while it
is due and the tick input runs, so that with EN = 0, or without the tick input, none runs. While it is
due no host access is performed: with the tick input running the DISPATCH is, and the access stays
listed and is performed right after it; with the input stopped no agent has an enabled step. -/
def Obligations.DueDispatchHoldsHostAccess : Prop :=
  ∀ s : State, (s.nextTurn = .dispatch → s.en = true ∧ s.pending = true ∧ s.ticking = true) ∧
    ∀ (a : BusAccess) (rest : List Event),
      s.en = true → s.pending = true → s.events = .access a :: rest →
      (s.ticking = false → Machine.step s = .fault .noStepEnabled) ∧
      (s.ticking = true → s.nextTurn = .dispatch ∧
        ∃ t : State, Machine.step s = .next t ∧ t.events = .access a :: rest ∧
          t.response = s.response ∧ t.pending = false ∧ t.counter = s.counter ∧
          Machine.step t = performAccess a { t with events := rest })

/-- Rules R146, R208, with the model's `overtakes` flag for the order they leave open (assumption 6):
while a dispatch is due, a tick goes first only where it is to overtake and `pend_age` is below the
bound; at the bound the DISPATCH commits before the counter advances. -/
def Obligations.LatencyBoundStopsTheCounter : Prop :=
  ∀ (s : State) (overtakes : Bool) (rest : List Event),
    s.en = true → s.pending = true → s.ticking = true → s.events = .tick overtakes :: rest →
    ∃ t : State, Machine.step s = .next t ∧
      (overtakes = true ∧ s.pendAge < s.params.set.dispatchLatencyMax →
        s.nextTurn = .tick ∧ t.counter = s.counter + 1 ∧ t.pending = true ∧ t.pendAge = s.pendAge + 1 ∧
        t.chans = s.chans ∧ t.events = rest) ∧
      (overtakes = false ∨ s.params.set.dispatchLatencyMax ≤ s.pendAge →
        s.nextTurn = .dispatch ∧ t.counter = s.counter ∧ t.pending = false ∧ t.pendAge = 0 ∧
        t.events = .tick overtakes :: rest)

/-- The model's own step (assumption 4): a host access at its turn runs the operation it decodes to, on
the state with the access taken off the list: this is how a step runs a decoded operation on this
hardware. -/
def Obligations.StepRunsDecodedAccess : Prop :=
  ∀ (s : State) (a : BusAccess) (rest : List Event) (i : Instr),
    s.events = .access a :: rest → s.en = false ∨ s.pending = false → decodeAccess a = .ok i →
    Machine.step s = exec i { s with events := rest }

/-- The model's own interface (assumptions 4, 9, 10, 11): an opcode-table word presented as the next
access (`withFetchWord`) is run by the very next step, for the command rows too. -/
def Obligations.StepRunsPresentedTableWord : Prop :=
  ∀ (s : State) (nbits w : Nat) (i : Instr), decodeTableWord nbits w = some i →
    Machine.step (s.withFetchWord nbits w) =
      exec i { s.withFetchWord nbits w with events := s.events }

/-! ## DISPATCH -/

/-- Rules R148 to R151: what a DISPATCH does to each channel, the one ELAPSED subtracted modulo 2^16,
and that it writes nothing but the channels, PENDING, `pend_age`, `diag`, COMPARE and ELAPSED. -/
def Obligations.DispatchDrainsAndToggles : Prop :=
  ∀ s : State, s.nextTurn = .dispatch → ∃ t : State, Machine.step s = .next t ∧
    t = { s with
      chans := t.chans, pending := false, pendAge := 0, diag := t.diag,
      compare := t.compare, elapsed := t.elapsed } ∧
    ∀ i : ChannelIx,
      ((s.channel i).period = 0xFFFF#16 → t.channel i = s.channel i) ∧
      ((s.channel i).period ≠ 0xFFFF#16 →
        let left := (s.channel i).countdown - s.elapsed
        (left.toNat < s.params.set.toggleThreshold → t.channel i = { s.channel i with
          level := !(s.channel i).level
          countdown := if (s.channel i).level = true then
              BitVec.ofNat 16 (s.params.set.refreshUs * s.params.set.tickNum / s.params.set.tickDen)
            else (s.channel i).period }) ∧
        (s.params.set.toggleThreshold ≤ left.toNat →
          t.channel i = { s.channel i with countdown := left }))

/-- Rules R152, R155: how a DISPATCH that leaves an active channel reprograms COMPARE and ELAPSED, from
the smallest countdown `m` it leaves. -/
def Obligations.DispatchReprogramsFromLeastCountdown : Prop :=
  ∀ (s t : State) (m : Nat), s.nextTurn = .dispatch → Machine.step s = .next t → IsLeastActive t m →
    (s.params.set.coalesceWindow ≤ m →
      t.elapsed = BitVec.ofNat 16 s.params.set.coalesceWindow ∧
      t.compare = s.compare + BitVec.ofNat 16 s.params.set.coalesceWindow) ∧
    (m < s.params.set.coalesceWindow →
      t.elapsed = BitVec.ofNat 16 m ∧
      t.compare = s.compare + BitVec.ofNat 16
        (if m < s.params.set.nearMissEps then m + s.params.set.nearMissEps else m))

/-- Rule R154. -/
def Obligations.DiagnosticTogglesOnNearMiss : Prop :=
  ∀ (s t : State) (m : Nat), s.nextTurn = .dispatch → Machine.step s = .next t → IsLeastActive t m →
    t.diag = if s.params.set.diagPresent = true ∧ s.diagEn = true ∧ m < s.params.set.nearMissEps
      then !s.diag else s.diag

/-- Rule R156: with no active channel a DISPATCH is exactly this. -/
def Obligations.IdleDispatchAdvancesByHeartbeat : Prop :=
  ∀ s : State, s.nextTurn = .dispatch → (∀ i : ChannelIx, (s.channel i).period = 0xFFFF#16) →
    Machine.step s = .next { s with
      pending := false, pendAge := 0
      compare := s.compare + BitVec.ofNat 16 s.params.set.heartbeatStep
      elapsed := BitVec.ofNat 16 s.params.set.heartbeatStep }

/-- The spec's inference R158 ("every order gives the same state", marked derived there): a DISPATCH
from the same channels in another order leaves the same channels in that order, and everything else the
same. -/
def Obligations.ChannelOrderIsUnobservable : Prop :=
  ∀ (s t : State) (cs : Channels) (order : Equiv.Perm ChannelIx),
    s.nextTurn = .dispatch → Machine.step s = .next t → (∀ i : ChannelIx, cs[i] = s.channel (order i)) →
    ∃ u : State, Machine.step { s with chans := cs } = .next u ∧ u = { t with chans := u.chans } ∧
      ∀ i : ChannelIx, u.channel i = t.channel (order i)

/-- The spec's inferences R162, R165 ("so `d >= min(NEAR_MISS_EPS, COALESCE_WINDOW, HEARTBEAT_STEP)`"),
with the model's further premise on the epsilon (assumption 16). -/
def Obligations.CompareAdvanceHasLowerBound : Prop :=
  ∀ s t : State, s.params.set.nearMissEps ≤ 0x8000 → s.nextTurn = .dispatch →
    Machine.step s = .next t →
    min s.params.set.nearMissEps (min s.params.set.coalesceWindow s.params.set.heartbeatStep) ≤
      (t.compare - s.compare).toNat

/-- Under the spec's inference R163, one DISPATCH at a time: the ELAPSED a DISPATCH writes is its
COMPARE advance, except after a near miss, where the advance is NEAR_MISS_EPS more. -/
def Obligations.ElapsedIsTheAdvanceButForNearMiss : Prop :=
  ∀ s t : State, s.nextTurn = .dispatch → Machine.step s = .next t →
    t.compare - s.compare = t.elapsed ∨
    (∃ m, IsLeastActive t m ∧ m < s.params.set.nearMissEps ∧ m < s.params.set.coalesceWindow ∧
      t.compare - s.compare = t.elapsed + BitVec.ofNat 16 s.params.set.nearMissEps)

/-! ## Who writes what: rules about every step -/

/-- Rules R25, R235: COUNTER is written by TICK and reset only, and TICK occurs only while the tick
input runs. -/
def Obligations.OnlyTickAndResetWriteCounter : Prop :=
  ∀ s t : State, Machine.step s = .next t →
    t.counter = s.counter ∨ (s.nextTurn = .tick ∧ s.ticking = true ∧ t.counter = s.counter + 1) ∨
    (s.nextTurn = .reset ∧ t.counter = 0)

/-- Rules R21, R22: a countdown is written by DISPATCH, INIT and reset only; a period by INIT,
SET_ANGLE, SET_PERIOD and reset only. -/
def Obligations.WritersOfCountdownAndPeriod : Prop :=
  ∀ (s t : State) (i : ChannelIx), Machine.step s = .next t →
    ((t.channel i).countdown ≠ (s.channel i).countdown →
      s.nextTurn = .dispatch ∨ s.nextTurn = .reset ∨ WritesCommand s 0x10000000#32) ∧
    ((t.channel i).period ≠ (s.channel i).period →
      s.nextTurn = .reset ∨ WritesCommand s 0x10000000#32 ∨
      ∃ w, WritesCommand s w ∧
        ((∃ ch angle, decodeCommand w = .ok (.setAngle ch angle) ∧ ch.toNat = i.val) ∨
         (∃ ch ticks, decodeCommand w = .ok (.setPeriod ch ticks) ∧ ch.toNat = i.val)))

/-- Rule R23 and the spec's inference R161: a level changes only in a DISPATCH, only on an active
channel, or by reset. -/
def Obligations.LevelChangesOnlyOnActiveInDispatch : Prop :=
  ∀ (s t : State) (i : ChannelIx), Machine.step s = .next t →
    (t.channel i).level ≠ (s.channel i).level →
    s.nextTurn = .reset ∨ (s.nextTurn = .dispatch ∧ (s.channel i).period ≠ 0xFFFF#16)

/-- Rules R24, R36, R248: an accepted SET_ANGLE or SET_PERIOD leaves its channel's output driven; an
output once driven stays driven until reset; and an undriven one becomes driven only by a SET of its
channel. -/
def Obligations.OutputsAreDrivenFromFirstSet : Prop :=
  ∀ (s t : State) (i : ChannelIx), Machine.step s = .next t →
    (∀ w ch, WritesCommand s w → ch.toNat = i.val → i.val < s.params.set.nCh →
      (∃ angle, decodeCommand w = .ok (.setAngle ch angle) ∧
        pulseTicks s.params s.clamp angle < 0xFFFF) ∨
      (∃ ticks, decodeCommand w = .ok (.setPeriod ch ticks) ∧ ticks ≠ 0xFFFF#16) →
      t.servoOut i = .driven (s.channel i).level) ∧
    (s.servoOut i ≠ .undriven → s.nextTurn ≠ .reset →
      t.servoOut i = .driven (t.channel i).level) ∧
    (s.servoOut i = .undriven → t.servoOut i ≠ .undriven →
      ∃ w, WritesCommand s w ∧
        ((∃ ch angle, decodeCommand w = .ok (.setAngle ch angle) ∧ ch.toNat = i.val) ∨
         (∃ ch ticks, decodeCommand w = .ok (.setPeriod ch ticks) ∧ ch.toNat = i.val)))

/-- Rules R26, R27: COMPARE is written by DISPATCH, WR_COMPARE and reset only, ELAPSED by DISPATCH and
reset only. -/
def Obligations.WritersOfCompareAndElapsed : Prop :=
  ∀ s t : State, Machine.step s = .next t →
    (t.compare ≠ s.compare →
      s.nextTurn = .dispatch ∨ s.nextTurn = .reset ∨
      ∃ v, s.nextTurn = .access (.write 0x14 4 v) ∧ t.compare = v.extractLsb' 0 16) ∧
    (t.elapsed ≠ s.elapsed → s.nextTurn = .dispatch ∨ s.nextTurn = .reset)

/-- Rule R31: an error bit is cleared by nothing but a host write of 1 to it, and reset. -/
def Obligations.ErrorBitsAreSticky : Prop :=
  ∀ s t : State, Machine.step s = .next t → s.nextTurn ≠ .reset →
    (s.errIllegal = true → t.errIllegal = false →
      ∃ v, s.nextTurn = .access (.write 0x08 4 v) ∧ v.getLsbD 1 = true) ∧
    (s.errChannel = true → t.errChannel = false →
      ∃ v, s.nextTurn = .access (.write 0x08 4 v) ∧ v.getLsbD 2 = true) ∧
    (s.errPeriod = true → t.errPeriod = false →
      ∃ v, s.nextTurn = .access (.write 0x08 4 v) ∧ v.getLsbD 3 = true) ∧
    (s.errBus = true → t.errBus = false →
      ∃ v, s.nextTurn = .access (.write 0x08 4 v) ∧ v.getLsbD 4 = true)

/-- Rule R33: `diag` is written by a DISPATCH with DIAG_EN = 1, and by reset, only. -/
def Obligations.DiagChangesOnlyWhenEnabled : Prop :=
  ∀ s t : State, Machine.step s = .next t → t.diag ≠ s.diag →
    s.nextTurn = .reset ∨ (s.nextTurn = .dispatch ∧ s.diagEn = true)

/-! ## Invariants that every step keeps -/

/-- The spec's inference R160 ("No countdown wraps", marked derived there), as an invariant of every
step from every state that meets it. -/
def Obligations.StepKeepsCountdownsCoveringElapsed : Prop :=
  ∀ s t : State, RefreshCoversSteps s.params → CountdownsCoverElapsed s →
    Machine.step s = .next t → CountdownsCoverElapsed t

/-- The invariants below hold after reset, that of the spec's inference R160 ("It holds at reset") under
its premise on the parameters. -/
def Obligations.ResetMeetsTheInvariants : Prop :=
  ∀ p : Params,
    (RefreshCoversSteps p → CountdownsCoverElapsed (State.resetWith p)) ∧
    LatencyWithinBound (State.resetWith p) ∧ DiagnosticAbsentIsLow (State.resetWith p)

/-- Rules R29, R146: `pend_age` never passes the latency bound, and counts only while a dispatch is due.
-/
def Obligations.StepKeepsLatencyWithinBound : Prop :=
  ∀ s t : State, LatencyWithinBound s → Machine.step s = .next t → LatencyWithinBound t

/-- Rule R154: in a build without the diagnostic, `diag` stays 0. -/
def Obligations.StepKeepsAbsentDiagnosticLow : Prop :=
  ∀ s t : State, DiagnosticAbsentIsLow s → Machine.step s = .next t → DiagnosticAbsentIsLow t

/-- The spec's inference R162 ("No missed match", marked derived there), with the model's further
premise on the epsilon (assumption 16). While dispatching stays enabled and no step writes COMPARE,
every step keeps the machine on schedule: a match pending within the latency bound, or COMPARE ahead of
COUNTER by no more than the advance last programmed. -/
def Obligations.StepKeepsMatchOnSchedule : Prop :=
  ∀ s t : State, LatencyBelowAdvances s.params → MatchOnSchedule s →
    Machine.step s = .next t → t.en = true → WritesNoCompare s → MatchOnSchedule t

/-- The spec's inference R162 ("the new COMPARE is ahead of COUNTER"), with the model's further premise
on the epsilon (assumption 16): a DISPATCH that runs on schedule leaves COMPARE ahead of COUNTER, by its
COMPARE advance less the ticks since the match. -/
def Obligations.DispatchSeatsCompareAhead : Prop :=
  ∀ s t : State, LatencyBelowAdvances s.params → MatchOnSchedule s →
    s.nextTurn = .dispatch → Machine.step s = .next t →
    0 < (t.compare - t.counter).toNat ∧
    (t.compare - t.counter).toNat + s.pendAge = (t.compare - s.compare).toNat

/-- From the spec's inference R236 ("Enabling on time"): a CTRL write with EN = 1 while no match is
pending and at most ELAPSED ticks are left to the match puts the machine on schedule. -/
def Obligations.EnablingInTimeStartsOnSchedule : Prop :=
  ∀ (s t : State) (v : Word), s.pending = false → 0 < (s.compare - s.counter).toNat →
    (s.compare - s.counter).toNat ≤ s.elapsed.toNat → v.getLsbD 0 = true →
    exec (.wrCtrl v) s = .next t → MatchOnSchedule t

/-! ## The remaining writers -/

/-- Rules R30, R32: the three fields of CTRL change only by a WR_CTRL that writes them, or by reset;
ERRCMD changes only by a CMD write that is rejected and takes its word, or by reset. -/
def Obligations.WritersOfControlAndErrcmd : Prop :=
  ∀ s t : State, Machine.step s = .next t → s.nextTurn ≠ .reset →
    (t.en ≠ s.en ∨ t.diagEn ≠ s.diagEn ∨ t.clamp ≠ s.clamp →
      ∃ v, s.nextTurn = .access (.write 0x04 4 v) ∧
        t.en = v.getLsbD 0 ∧ t.diagEn = v.getLsbD 1 ∧ t.clamp = v.getLsbD 2) ∧
    (t.errcmd ≠ s.errcmd → WritesCommand s t.errcmd ∧
      (t.errIllegal = true ∨ t.errChannel = true ∨ t.errPeriod = true))
end

