-- ==== Sys2Proof/Laws/Decode.lean ====
section
/-! SUPPORT. What the decoders can answer, each said once. -/

namespace Sys2Proof

/-! ## Words as numbers -/

/-- Fields that do not overlap add up. -/
theorem fields_toNat (op ch : BitVec 8) (arg : Ticks) :
    (op.setWidth 32 <<< 24 ||| ch.setWidth 32 <<< 16 ||| arg.setWidth 32 : Word).toNat =
      op.toNat * 0x1000000 + ch.toNat * 0x10000 + arg.toNat := by
  have ho := op.isLt
  have hc := ch.isLt
  have ha := arg.isLt
  have e1 : (op.setWidth 32 <<< 24 : Word).toNat = op.toNat <<< 8 <<< 16 := by
    simp only [BitVec.toNat_shiftLeft, BitVec.toNat_setWidth, Nat.shiftLeft_eq]; omega
  have e2 : (ch.setWidth 32 <<< 16 : Word).toNat = ch.toNat <<< 16 := by
    simp only [BitVec.toNat_shiftLeft, BitVec.toNat_setWidth, Nat.shiftLeft_eq]; omega
  have e3 : (arg.setWidth 32 : Word).toNat = arg.toNat := by
    rw [BitVec.toNat_setWidth]; omega
  rw [BitVec.toNat_or, BitVec.toNat_or, e1, e2, e3, ← Nat.shiftLeft_or_distrib,
    ← Nat.shiftLeft_add_eq_or_of_lt (by omega), ← Nat.shiftLeft_add_eq_or_of_lt (by omega)]
  simp only [Nat.shiftLeft_eq]
  omega

/-- The word of SET_ANGLE as a number (rule R91). -/
theorem setAngleWord_toNat (ch angle : BitVec 8) :
    (setAngleWord ch angle).toNat = 0x20000000 + ch.toNat * 0x10000 + angle.toNat := by
  have h := fields_toNat 0x20#8 ch (angle.setWidth 16)
  have ha : (angle.setWidth 16).setWidth 32 = angle.setWidth 32 :=
    BitVec.eq_of_toNat_eq (by simp only [BitVec.toNat_setWidth]; have := angle.isLt; omega)
  have hn : (angle.setWidth 16).toNat = angle.toNat := by
    rw [BitVec.toNat_setWidth]; have := angle.isLt; omega
  rw [ha, hn] at h
  exact h

/-- The word of SET_PERIOD as a number (rule R91). -/
theorem setPeriodWord_toNat (ch : BitVec 8) (ticks : Ticks) :
    (setPeriodWord ch ticks).toNat = 0x30000000 + ch.toNat * 0x10000 + ticks.toNat :=
  fields_toNat 0x30#8 ch ticks

/-- A word's bytes make the word again (rule R52). -/
theorem wordOfBytes_byteOfWord (w : Word) :
    wordOfBytes (byteOfWord w 0) (byteOfWord w 1) (byteOfWord w 2) (byteOfWord w 3) = w := by
  apply BitVec.eq_of_toNat_eq
  have hw := w.isLt
  unfold wordOfBytes byteOfWord
  rw [BitVec.toNat_append, BitVec.toNat_append, BitVec.toNat_append,
    ← Nat.shiftLeft_add_eq_or_of_lt (BitVec.isLt _), ← Nat.shiftLeft_add_eq_or_of_lt (BitVec.isLt _),
    ← Nat.shiftLeft_add_eq_or_of_lt (BitVec.isLt _)]
  simp only [BitVec.extractLsb'_toNat, Nat.shiftLeft_eq, Nat.shiftRight_eq_div_pow]
  omega

/-- The bytes of the word of four bytes are those bytes (rule R52). -/
theorem bytesOfWord_wordOfBytes (b0 b1 b2 b3 : Byte) :
    bytesOfWord (wordOfBytes b0 b1 b2 b3) = [b0, b1, b2, b3] := by
  have h0 := b0.isLt
  have h1 := b1.isLt
  have h2 := b2.isLt
  have h3 := b3.isLt
  have hn : (wordOfBytes b0 b1 b2 b3).toNat =
      b3.toNat * 0x1000000 + b2.toNat * 0x10000 + b1.toNat * 0x100 + b0.toNat := by
    unfold wordOfBytes
    rw [BitVec.toNat_append, BitVec.toNat_append, BitVec.toNat_append,
      ← Nat.shiftLeft_add_eq_or_of_lt (BitVec.isLt _),
      ← Nat.shiftLeft_add_eq_or_of_lt (BitVec.isLt _),
      ← Nat.shiftLeft_add_eq_or_of_lt (BitVec.isLt _)]
    simp only [Nat.shiftLeft_eq]
    omega
  simp only [bytesOfWord, byteOfWord, List.cons.injEq, and_true]
  refine ⟨?_, ?_, ?_, ?_⟩ <;> apply BitVec.eq_of_toNat_eq <;>
    simp only [BitVec.extractLsb'_toNat, Nat.shiftRight_eq_div_pow, hn] <;> omega

/-! ## The decoders -/

/-- A decoded key hits a row of the table, and the operation is that row's (rule R95). -/
theorem decodeKey_eq_ok {k : Key} {v : Word} {i : Instr} (h : decodeKey k v = .ok i) :
    ∃ r ∈ busRows, BusRow.hits k r = true ∧ i = r.op (k.extractLsb' 0 8) v := by
  unfold decodeKey at h
  split at h
  · rename_i r hr
    exact ⟨r, List.mem_of_find?_eq_some hr, List.find?_some hr, (Except.ok.inj h).symm⟩
  · cases h

/-- The key of an access as a number (rule R95). -/
theorem keyOf_toNat {wr : Bool} {off n : Nat} {k : Key} (h : keyOf wr off n = some k) :
    1 ≤ n ∧ n ≤ 4 ∧ off ≤ 0xFF ∧ k.toNat = wr.toNat * 1024 + (n - 1) * 256 + off := by
  unfold keyOf at h
  split at h
  · rename_i hn
    refine ⟨hn.1, hn.2.1, hn.2.2, ?_⟩
    cases h
    rw [BitVec.toNat_append, BitVec.toNat_append, ← Nat.shiftLeft_add_eq_or_of_lt (BitVec.isLt _),
      ← Nat.shiftLeft_add_eq_or_of_lt (BitVec.isLt _)]
    simp only [BitVec.toNat_ofBool, BitVec.toNat_ofNat, Nat.shiftLeft_eq]
    rw [Nat.mod_eq_of_lt (by omega), Nat.mod_eq_of_lt (by omega)]
    omega
  · cases h

/-- The key of a decoded access (rules R54, R95). -/
theorem decodeAccess_eq_ok {a : BusAccess} {i : Instr} (h : decodeAccess a = .ok i) :
    (∃ off n k, a = .read off n ∧ keyOf false off n = some k ∧ decodeKey k 0 = .ok i) ∨
    (∃ off n v k, a = .write off n v ∧ keyOf true off n = some k ∧ decodeKey k v = .ok i) := by
  cases a with
  | read off n =>
    simp only [decodeAccess] at h
    split at h
    · exact .inl ⟨off, n, _, rfl, ‹_›, h⟩
    · cases h
  | write off n v =>
    simp only [decodeAccess] at h
    split at h
    · exact .inr ⟨off, n, v, _, rfl, ‹_›, h⟩
    · cases h

/-- A row whose whole key is fixed is hit by that key alone. -/
theorem hits_full {k p : Key} {op : Byte → Word → Instr}
    (h : BusRow.hits k ⟨p, 0x7FF#11, op⟩ = true) : k = p := by
  simp only [BusRow.hits, beq_iff_eq] at h
  rw [← h]
  exact (BitVec.and_allOnes (x := k)).symm

/-- The five kinds of answer the key decoder gives: the four writes that have an effect, each with its one
key, and the rest (rules R56, R95). -/
theorem decodeKey_kinds {k : Key} {v : Word} {i : Instr} (h : decodeKey k v = .ok i) :
    (k = 0x700#11 ∧ i = .wrCmd v) ∨ (k = 0x704#11 ∧ i = .wrCtrl v) ∨
    (k = 0x708#11 ∧ i = .wrStatus v) ∨ (k = 0x714#11 ∧ i = .wrCompare v) ∨
    (i ∈ [.rdCmd, .rdCtrl, .rdStatus, .rdErrcmd, .rdCounter, .rdCompare, .rdElapsed, .rdPins,
        .wrErrcmd v, .wrCounter v, .wrElapsed v, .wrPins v] ∨
      (∃ c, i = .rdCh c ∨ i = .wrCh c v) ∨
      ∃ off, i = .rdUnmappedLow off ∨ i = .wrUnmappedLow off v ∨
        i = .rdUnmappedHigh off ∨ i = .wrUnmappedHigh off v) := by
  obtain ⟨r, hr, hits, rfl⟩ := decodeKey_eq_ok h
  simp only [busRows, controlRows, timerRows, rangeRows, List.cons_append, List.nil_append,
    List.mem_cons, List.not_mem_nil, or_false] at hr
  rcases hr with rfl | rfl | rfl | rfl | rfl | rfl | rfl | rfl | rfl | rfl | rfl | rfl | rfl |
    rfl | rfl | rfl | rfl | rfl | rfl | rfl | rfl | rfl <;>
  first
    | exact .inl ⟨hits_full hits, rfl⟩
    | exact .inr (.inl ⟨hits_full hits, rfl⟩)
    | exact .inr (.inr (.inl ⟨hits_full hits, rfl⟩))
    | exact .inr (.inr (.inr (.inl ⟨hits_full hits, rfl⟩)))
    | simp

/-- The access whose key is that of a word write at offset `p`. -/
theorem access_of_write_key {wr : Bool} {off n p : Nat} {k : Key} (h : keyOf wr off n = some k)
    (hk : k.toNat = 0x700 + p) (hp : p ≤ 0xFC) : wr = true ∧ off = p ∧ n = 4 := by
  obtain ⟨h1, h2, h3, e⟩ := keyOf_toNat h
  rw [hk] at e
  cases wr with
  | true => simp only [Bool.toNat_true] at e; exact ⟨rfl, by omega, by omega⟩
  | false => simp only [Bool.toNat_false] at e; omega

end Sys2Proof
end

