-- ==== Sys2Proof/Laws/State.lean ====
section
/-! SUPPORT. What each named update of the state does to each field: one lemma per field, true by rfl, so that no
later proof unfolds a record update. -/

namespace Sys2Proof.Machine

variable (s : State)

/-! ### `State.answerRead` -/

@[simp] theorem State.answerRead_params (v : Word) : (s.answerRead v).params = s.params := rfl
@[simp] theorem State.answerRead_chans (v : Word) : (s.answerRead v).chans = s.chans := rfl
@[simp] theorem State.answerRead_counter (v : Word) : (s.answerRead v).counter = s.counter := rfl
@[simp] theorem State.answerRead_compare (v : Word) : (s.answerRead v).compare = s.compare := rfl
@[simp] theorem State.answerRead_elapsed (v : Word) : (s.answerRead v).elapsed = s.elapsed := rfl
@[simp] theorem State.answerRead_pending (v : Word) : (s.answerRead v).pending = s.pending := rfl
@[simp] theorem State.answerRead_pendAge (v : Word) : (s.answerRead v).pendAge = s.pendAge := rfl
@[simp] theorem State.answerRead_en (v : Word) : (s.answerRead v).en = s.en := rfl
@[simp] theorem State.answerRead_diagEn (v : Word) : (s.answerRead v).diagEn = s.diagEn := rfl
@[simp] theorem State.answerRead_clamp (v : Word) : (s.answerRead v).clamp = s.clamp := rfl
@[simp] theorem State.answerRead_errIllegal (v : Word) : (s.answerRead v).errIllegal = s.errIllegal := rfl
@[simp] theorem State.answerRead_errChannel (v : Word) : (s.answerRead v).errChannel = s.errChannel := rfl
@[simp] theorem State.answerRead_errPeriod (v : Word) : (s.answerRead v).errPeriod = s.errPeriod := rfl
@[simp] theorem State.answerRead_errBus (v : Word) : (s.answerRead v).errBus = s.errBus := rfl
@[simp] theorem State.answerRead_errcmd (v : Word) : (s.answerRead v).errcmd = s.errcmd := rfl
@[simp] theorem State.answerRead_diag (v : Word) : (s.answerRead v).diag = s.diag := rfl
@[simp] theorem State.answerRead_response (v : Word) :
    (s.answerRead v).response = some (.read false v) := rfl
@[simp] theorem State.answerRead_events (v : Word) : (s.answerRead v).events = s.events := rfl
@[simp] theorem State.answerRead_ticking (v : Word) : (s.answerRead v).ticking = s.ticking := rfl

/-! ### `State.answerWrite` -/

@[simp] theorem State.answerWrite_params : (s.answerWrite).params = s.params := rfl
@[simp] theorem State.answerWrite_chans : (s.answerWrite).chans = s.chans := rfl
@[simp] theorem State.answerWrite_counter : (s.answerWrite).counter = s.counter := rfl
@[simp] theorem State.answerWrite_compare : (s.answerWrite).compare = s.compare := rfl
@[simp] theorem State.answerWrite_elapsed : (s.answerWrite).elapsed = s.elapsed := rfl
@[simp] theorem State.answerWrite_pending : (s.answerWrite).pending = s.pending := rfl
@[simp] theorem State.answerWrite_pendAge : (s.answerWrite).pendAge = s.pendAge := rfl
@[simp] theorem State.answerWrite_en : (s.answerWrite).en = s.en := rfl
@[simp] theorem State.answerWrite_diagEn : (s.answerWrite).diagEn = s.diagEn := rfl
@[simp] theorem State.answerWrite_clamp : (s.answerWrite).clamp = s.clamp := rfl
@[simp] theorem State.answerWrite_errIllegal : (s.answerWrite).errIllegal = s.errIllegal := rfl
@[simp] theorem State.answerWrite_errChannel : (s.answerWrite).errChannel = s.errChannel := rfl
@[simp] theorem State.answerWrite_errPeriod : (s.answerWrite).errPeriod = s.errPeriod := rfl
@[simp] theorem State.answerWrite_errBus : (s.answerWrite).errBus = s.errBus := rfl
@[simp] theorem State.answerWrite_errcmd : (s.answerWrite).errcmd = s.errcmd := rfl
@[simp] theorem State.answerWrite_diag : (s.answerWrite).diag = s.diag := rfl
@[simp] theorem State.answerWrite_response : (s.answerWrite).response = some (.write false) := rfl
@[simp] theorem State.answerWrite_events : (s.answerWrite).events = s.events := rfl
@[simp] theorem State.answerWrite_ticking : (s.answerWrite).ticking = s.ticking := rfl

/-! ### `State.setChannel` -/

@[simp] theorem State.setChannel_params (i : ChannelIx) (c : Channel) :
    (s.setChannel i c).params = s.params := rfl
@[simp] theorem State.setChannel_chans (i : ChannelIx) (c : Channel) :
    (s.setChannel i c).chans = s.chans.set i c := rfl
@[simp] theorem State.setChannel_counter (i : ChannelIx) (c : Channel) :
    (s.setChannel i c).counter = s.counter := rfl
@[simp] theorem State.setChannel_compare (i : ChannelIx) (c : Channel) :
    (s.setChannel i c).compare = s.compare := rfl
@[simp] theorem State.setChannel_elapsed (i : ChannelIx) (c : Channel) :
    (s.setChannel i c).elapsed = s.elapsed := rfl
@[simp] theorem State.setChannel_pending (i : ChannelIx) (c : Channel) :
    (s.setChannel i c).pending = s.pending := rfl
@[simp] theorem State.setChannel_pendAge (i : ChannelIx) (c : Channel) :
    (s.setChannel i c).pendAge = s.pendAge := rfl
@[simp] theorem State.setChannel_en (i : ChannelIx) (c : Channel) : (s.setChannel i c).en = s.en := rfl
@[simp] theorem State.setChannel_diagEn (i : ChannelIx) (c : Channel) :
    (s.setChannel i c).diagEn = s.diagEn := rfl
@[simp] theorem State.setChannel_clamp (i : ChannelIx) (c : Channel) :
    (s.setChannel i c).clamp = s.clamp := rfl
@[simp] theorem State.setChannel_errIllegal (i : ChannelIx) (c : Channel) :
    (s.setChannel i c).errIllegal = s.errIllegal := rfl
@[simp] theorem State.setChannel_errChannel (i : ChannelIx) (c : Channel) :
    (s.setChannel i c).errChannel = s.errChannel := rfl
@[simp] theorem State.setChannel_errPeriod (i : ChannelIx) (c : Channel) :
    (s.setChannel i c).errPeriod = s.errPeriod := rfl
@[simp] theorem State.setChannel_errBus (i : ChannelIx) (c : Channel) :
    (s.setChannel i c).errBus = s.errBus := rfl
@[simp] theorem State.setChannel_errcmd (i : ChannelIx) (c : Channel) :
    (s.setChannel i c).errcmd = s.errcmd := rfl
@[simp] theorem State.setChannel_diag (i : ChannelIx) (c : Channel) : (s.setChannel i c).diag = s.diag := rfl
@[simp] theorem State.setChannel_response (i : ChannelIx) (c : Channel) :
    (s.setChannel i c).response = s.response := rfl
@[simp] theorem State.setChannel_events (i : ChannelIx) (c : Channel) :
    (s.setChannel i c).events = s.events := rfl
@[simp] theorem State.setChannel_ticking (i : ChannelIx) (c : Channel) :
    (s.setChannel i c).ticking = s.ticking := rfl

/-! ### `State.arm` -/

@[simp] theorem State.arm_params (i : ChannelIx) (p : Ticks) : (s.arm i p).params = s.params := rfl
@[simp] theorem State.arm_chans (i : ChannelIx) (p : Ticks) :
    (s.arm i p).chans = s.chans.set i { s.channel i with period := p, dir := true } := rfl
@[simp] theorem State.arm_counter (i : ChannelIx) (p : Ticks) : (s.arm i p).counter = s.counter := rfl
@[simp] theorem State.arm_compare (i : ChannelIx) (p : Ticks) : (s.arm i p).compare = s.compare := rfl
@[simp] theorem State.arm_elapsed (i : ChannelIx) (p : Ticks) : (s.arm i p).elapsed = s.elapsed := rfl
@[simp] theorem State.arm_pending (i : ChannelIx) (p : Ticks) : (s.arm i p).pending = s.pending := rfl
@[simp] theorem State.arm_pendAge (i : ChannelIx) (p : Ticks) : (s.arm i p).pendAge = s.pendAge := rfl
@[simp] theorem State.arm_en (i : ChannelIx) (p : Ticks) : (s.arm i p).en = s.en := rfl
@[simp] theorem State.arm_diagEn (i : ChannelIx) (p : Ticks) : (s.arm i p).diagEn = s.diagEn := rfl
@[simp] theorem State.arm_clamp (i : ChannelIx) (p : Ticks) : (s.arm i p).clamp = s.clamp := rfl
@[simp] theorem State.arm_errIllegal (i : ChannelIx) (p : Ticks) :
    (s.arm i p).errIllegal = s.errIllegal := rfl
@[simp] theorem State.arm_errChannel (i : ChannelIx) (p : Ticks) :
    (s.arm i p).errChannel = s.errChannel := rfl
@[simp] theorem State.arm_errPeriod (i : ChannelIx) (p : Ticks) : (s.arm i p).errPeriod = s.errPeriod := rfl
@[simp] theorem State.arm_errBus (i : ChannelIx) (p : Ticks) : (s.arm i p).errBus = s.errBus := rfl
@[simp] theorem State.arm_errcmd (i : ChannelIx) (p : Ticks) : (s.arm i p).errcmd = s.errcmd := rfl
@[simp] theorem State.arm_diag (i : ChannelIx) (p : Ticks) : (s.arm i p).diag = s.diag := rfl
@[simp] theorem State.arm_response (i : ChannelIx) (p : Ticks) : (s.arm i p).response = s.response := rfl
@[simp] theorem State.arm_events (i : ChannelIx) (p : Ticks) : (s.arm i p).events = s.events := rfl
@[simp] theorem State.arm_ticking (i : ChannelIx) (p : Ticks) :
    (s.arm i p).ticking = s.ticking := rfl

/-! ### `State.raiseBusError` -/

@[simp] theorem State.raiseBusError_params (a : BusAccess) : (s.raiseBusError a).params = s.params := rfl
@[simp] theorem State.raiseBusError_chans (a : BusAccess) : (s.raiseBusError a).chans = s.chans := rfl
@[simp] theorem State.raiseBusError_counter (a : BusAccess) : (s.raiseBusError a).counter = s.counter := rfl
@[simp] theorem State.raiseBusError_compare (a : BusAccess) : (s.raiseBusError a).compare = s.compare := rfl
@[simp] theorem State.raiseBusError_elapsed (a : BusAccess) : (s.raiseBusError a).elapsed = s.elapsed := rfl
@[simp] theorem State.raiseBusError_pending (a : BusAccess) : (s.raiseBusError a).pending = s.pending := rfl
@[simp] theorem State.raiseBusError_pendAge (a : BusAccess) : (s.raiseBusError a).pendAge = s.pendAge := rfl
@[simp] theorem State.raiseBusError_en (a : BusAccess) : (s.raiseBusError a).en = s.en := rfl
@[simp] theorem State.raiseBusError_diagEn (a : BusAccess) : (s.raiseBusError a).diagEn = s.diagEn := rfl
@[simp] theorem State.raiseBusError_clamp (a : BusAccess) : (s.raiseBusError a).clamp = s.clamp := rfl
@[simp] theorem State.raiseBusError_errIllegal (a : BusAccess) :
    (s.raiseBusError a).errIllegal = s.errIllegal := rfl
@[simp] theorem State.raiseBusError_errChannel (a : BusAccess) :
    (s.raiseBusError a).errChannel = s.errChannel := rfl
@[simp] theorem State.raiseBusError_errPeriod (a : BusAccess) :
    (s.raiseBusError a).errPeriod = s.errPeriod := rfl
@[simp] theorem State.raiseBusError_errBus (a : BusAccess) : (s.raiseBusError a).errBus = true := rfl
@[simp] theorem State.raiseBusError_errcmd (a : BusAccess) : (s.raiseBusError a).errcmd = s.errcmd := rfl
@[simp] theorem State.raiseBusError_diag (a : BusAccess) : (s.raiseBusError a).diag = s.diag := rfl
@[simp] theorem State.raiseBusError_response (a : BusAccess) :
    (s.raiseBusError a).response = some (errorResponse a) := rfl
@[simp] theorem State.raiseBusError_events (a : BusAccess) : (s.raiseBusError a).events = s.events := rfl
@[simp] theorem State.raiseBusError_ticking (a : BusAccess) :
    (s.raiseBusError a).ticking = s.ticking := rfl

/-! ### `State.setCtrl` -/

@[simp] theorem State.setCtrl_params (v : Word) : (s.setCtrl v).params = s.params := rfl
@[simp] theorem State.setCtrl_chans (v : Word) : (s.setCtrl v).chans = s.chans := rfl
@[simp] theorem State.setCtrl_counter (v : Word) : (s.setCtrl v).counter = s.counter := rfl
@[simp] theorem State.setCtrl_compare (v : Word) : (s.setCtrl v).compare = s.compare := rfl
@[simp] theorem State.setCtrl_elapsed (v : Word) : (s.setCtrl v).elapsed = s.elapsed := rfl
@[simp] theorem State.setCtrl_pending (v : Word) : (s.setCtrl v).pending = s.pending := rfl
@[simp] theorem State.setCtrl_pendAge (v : Word) : (s.setCtrl v).pendAge = 0 := rfl
@[simp] theorem State.setCtrl_en (v : Word) : (s.setCtrl v).en = v.getLsbD 0 := rfl
@[simp] theorem State.setCtrl_diagEn (v : Word) : (s.setCtrl v).diagEn = v.getLsbD 1 := rfl
@[simp] theorem State.setCtrl_clamp (v : Word) : (s.setCtrl v).clamp = v.getLsbD 2 := rfl
@[simp] theorem State.setCtrl_errIllegal (v : Word) : (s.setCtrl v).errIllegal = s.errIllegal := rfl
@[simp] theorem State.setCtrl_errChannel (v : Word) : (s.setCtrl v).errChannel = s.errChannel := rfl
@[simp] theorem State.setCtrl_errPeriod (v : Word) : (s.setCtrl v).errPeriod = s.errPeriod := rfl
@[simp] theorem State.setCtrl_errBus (v : Word) : (s.setCtrl v).errBus = s.errBus := rfl
@[simp] theorem State.setCtrl_errcmd (v : Word) : (s.setCtrl v).errcmd = s.errcmd := rfl
@[simp] theorem State.setCtrl_diag (v : Word) : (s.setCtrl v).diag = s.diag := rfl
@[simp] theorem State.setCtrl_response (v : Word) : (s.setCtrl v).response = s.response := rfl
@[simp] theorem State.setCtrl_events (v : Word) : (s.setCtrl v).events = s.events := rfl
@[simp] theorem State.setCtrl_ticking (v : Word) : (s.setCtrl v).ticking = s.ticking := rfl

/-! ### `State.setCompare` -/

@[simp] theorem State.setCompare_params (v : Word) : (s.setCompare v).params = s.params := rfl
@[simp] theorem State.setCompare_chans (v : Word) : (s.setCompare v).chans = s.chans := rfl
@[simp] theorem State.setCompare_counter (v : Word) : (s.setCompare v).counter = s.counter := rfl
@[simp] theorem State.setCompare_compare (v : Word) : (s.setCompare v).compare = v.extractLsb' 0 16 := rfl
@[simp] theorem State.setCompare_elapsed (v : Word) : (s.setCompare v).elapsed = s.elapsed := rfl
@[simp] theorem State.setCompare_pending (v : Word) : (s.setCompare v).pending = s.pending := rfl
@[simp] theorem State.setCompare_pendAge (v : Word) : (s.setCompare v).pendAge = s.pendAge := rfl
@[simp] theorem State.setCompare_en (v : Word) : (s.setCompare v).en = s.en := rfl
@[simp] theorem State.setCompare_diagEn (v : Word) : (s.setCompare v).diagEn = s.diagEn := rfl
@[simp] theorem State.setCompare_clamp (v : Word) : (s.setCompare v).clamp = s.clamp := rfl
@[simp] theorem State.setCompare_errIllegal (v : Word) : (s.setCompare v).errIllegal = s.errIllegal := rfl
@[simp] theorem State.setCompare_errChannel (v : Word) : (s.setCompare v).errChannel = s.errChannel := rfl
@[simp] theorem State.setCompare_errPeriod (v : Word) : (s.setCompare v).errPeriod = s.errPeriod := rfl
@[simp] theorem State.setCompare_errBus (v : Word) : (s.setCompare v).errBus = s.errBus := rfl
@[simp] theorem State.setCompare_errcmd (v : Word) : (s.setCompare v).errcmd = s.errcmd := rfl
@[simp] theorem State.setCompare_diag (v : Word) : (s.setCompare v).diag = s.diag := rfl
@[simp] theorem State.setCompare_response (v : Word) : (s.setCompare v).response = s.response := rfl
@[simp] theorem State.setCompare_events (v : Word) : (s.setCompare v).events = s.events := rfl
@[simp] theorem State.setCompare_ticking (v : Word) : (s.setCompare v).ticking = s.ticking := rfl

/-! ### `State.clearStatus` -/

@[simp] theorem State.clearStatus_params (v : Word) : (s.clearStatus v).params = s.params := rfl
@[simp] theorem State.clearStatus_chans (v : Word) : (s.clearStatus v).chans = s.chans := rfl
@[simp] theorem State.clearStatus_counter (v : Word) : (s.clearStatus v).counter = s.counter := rfl
@[simp] theorem State.clearStatus_compare (v : Word) : (s.clearStatus v).compare = s.compare := rfl
@[simp] theorem State.clearStatus_elapsed (v : Word) : (s.clearStatus v).elapsed = s.elapsed := rfl
@[simp] theorem State.clearStatus_pending (v : Word) :
    (s.clearStatus v).pending = (s.pending && !v.getLsbD 0) := rfl
@[simp] theorem State.clearStatus_pendAge (v : Word) :
    (s.clearStatus v).pendAge = if v.getLsbD 0 then 0 else s.pendAge := rfl
@[simp] theorem State.clearStatus_en (v : Word) : (s.clearStatus v).en = s.en := rfl
@[simp] theorem State.clearStatus_diagEn (v : Word) : (s.clearStatus v).diagEn = s.diagEn := rfl
@[simp] theorem State.clearStatus_clamp (v : Word) : (s.clearStatus v).clamp = s.clamp := rfl
@[simp] theorem State.clearStatus_errIllegal (v : Word) :
    (s.clearStatus v).errIllegal = (s.errIllegal && !v.getLsbD 1) := rfl
@[simp] theorem State.clearStatus_errChannel (v : Word) :
    (s.clearStatus v).errChannel = (s.errChannel && !v.getLsbD 2) := rfl
@[simp] theorem State.clearStatus_errPeriod (v : Word) :
    (s.clearStatus v).errPeriod = (s.errPeriod && !v.getLsbD 3) := rfl
@[simp] theorem State.clearStatus_errBus (v : Word) :
    (s.clearStatus v).errBus = (s.errBus && !v.getLsbD 4) := rfl
@[simp] theorem State.clearStatus_errcmd (v : Word) : (s.clearStatus v).errcmd = s.errcmd := rfl
@[simp] theorem State.clearStatus_diag (v : Word) : (s.clearStatus v).diag = s.diag := rfl
@[simp] theorem State.clearStatus_response (v : Word) : (s.clearStatus v).response = s.response := rfl
@[simp] theorem State.clearStatus_events (v : Word) : (s.clearStatus v).events = s.events := rfl
@[simp] theorem State.clearStatus_ticking (v : Word) : (s.clearStatus v).ticking = s.ticking := rfl

/-! ### `State.opInit` -/

@[simp] theorem State.opInit_params : (s.opInit).params = s.params := rfl
@[simp] theorem State.opInit_chans :
    (s.opInit).chans = updateAll (Channel.deactivate s.params) s.chans := rfl
@[simp] theorem State.opInit_counter : (s.opInit).counter = s.counter := rfl
@[simp] theorem State.opInit_compare : (s.opInit).compare = s.compare := rfl
@[simp] theorem State.opInit_elapsed : (s.opInit).elapsed = s.elapsed := rfl
@[simp] theorem State.opInit_pending : (s.opInit).pending = s.pending := rfl
@[simp] theorem State.opInit_pendAge : (s.opInit).pendAge = s.pendAge := rfl
@[simp] theorem State.opInit_en : (s.opInit).en = s.en := rfl
@[simp] theorem State.opInit_diagEn : (s.opInit).diagEn = s.diagEn := rfl
@[simp] theorem State.opInit_clamp : (s.opInit).clamp = s.clamp := rfl
@[simp] theorem State.opInit_errIllegal : (s.opInit).errIllegal = s.errIllegal := rfl
@[simp] theorem State.opInit_errChannel : (s.opInit).errChannel = s.errChannel := rfl
@[simp] theorem State.opInit_errPeriod : (s.opInit).errPeriod = s.errPeriod := rfl
@[simp] theorem State.opInit_errBus : (s.opInit).errBus = s.errBus := rfl
@[simp] theorem State.opInit_errcmd : (s.opInit).errcmd = s.errcmd := rfl
@[simp] theorem State.opInit_diag : (s.opInit).diag = s.diag := rfl
@[simp] theorem State.opInit_response : (s.opInit).response = s.response := rfl
@[simp] theorem State.opInit_events : (s.opInit).events = s.events := rfl
@[simp] theorem State.opInit_ticking : (s.opInit).ticking = s.ticking := rfl

/-! ### `State.takeEvent` -/

@[simp] theorem State.takeEvent_params : (s.takeEvent).params = s.params := rfl
@[simp] theorem State.takeEvent_chans : (s.takeEvent).chans = s.chans := rfl
@[simp] theorem State.takeEvent_counter : (s.takeEvent).counter = s.counter := rfl
@[simp] theorem State.takeEvent_compare : (s.takeEvent).compare = s.compare := rfl
@[simp] theorem State.takeEvent_elapsed : (s.takeEvent).elapsed = s.elapsed := rfl
@[simp] theorem State.takeEvent_pending : (s.takeEvent).pending = s.pending := rfl
@[simp] theorem State.takeEvent_pendAge : (s.takeEvent).pendAge = s.pendAge := rfl
@[simp] theorem State.takeEvent_en : (s.takeEvent).en = s.en := rfl
@[simp] theorem State.takeEvent_diagEn : (s.takeEvent).diagEn = s.diagEn := rfl
@[simp] theorem State.takeEvent_clamp : (s.takeEvent).clamp = s.clamp := rfl
@[simp] theorem State.takeEvent_errIllegal : (s.takeEvent).errIllegal = s.errIllegal := rfl
@[simp] theorem State.takeEvent_errChannel : (s.takeEvent).errChannel = s.errChannel := rfl
@[simp] theorem State.takeEvent_errPeriod : (s.takeEvent).errPeriod = s.errPeriod := rfl
@[simp] theorem State.takeEvent_errBus : (s.takeEvent).errBus = s.errBus := rfl
@[simp] theorem State.takeEvent_errcmd : (s.takeEvent).errcmd = s.errcmd := rfl
@[simp] theorem State.takeEvent_diag : (s.takeEvent).diag = s.diag := rfl
@[simp] theorem State.takeEvent_response : (s.takeEvent).response = s.response := rfl
@[simp] theorem State.takeEvent_events : (s.takeEvent).events = s.events.tail := rfl
@[simp] theorem State.takeEvent_ticking : (s.takeEvent).ticking = s.ticking := rfl

/-! ### `State.stopTicks` -/

@[simp] theorem State.stopTicks_params : (s.stopTicks).params = s.params := rfl
@[simp] theorem State.stopTicks_chans : (s.stopTicks).chans = s.chans := rfl
@[simp] theorem State.stopTicks_counter : (s.stopTicks).counter = s.counter := rfl
@[simp] theorem State.stopTicks_compare : (s.stopTicks).compare = s.compare := rfl
@[simp] theorem State.stopTicks_elapsed : (s.stopTicks).elapsed = s.elapsed := rfl
@[simp] theorem State.stopTicks_pending : (s.stopTicks).pending = s.pending := rfl
@[simp] theorem State.stopTicks_pendAge : (s.stopTicks).pendAge = s.pendAge := rfl
@[simp] theorem State.stopTicks_en : (s.stopTicks).en = s.en := rfl
@[simp] theorem State.stopTicks_diagEn : (s.stopTicks).diagEn = s.diagEn := rfl
@[simp] theorem State.stopTicks_clamp : (s.stopTicks).clamp = s.clamp := rfl
@[simp] theorem State.stopTicks_errIllegal : (s.stopTicks).errIllegal = s.errIllegal := rfl
@[simp] theorem State.stopTicks_errChannel : (s.stopTicks).errChannel = s.errChannel := rfl
@[simp] theorem State.stopTicks_errPeriod : (s.stopTicks).errPeriod = s.errPeriod := rfl
@[simp] theorem State.stopTicks_errBus : (s.stopTicks).errBus = s.errBus := rfl
@[simp] theorem State.stopTicks_errcmd : (s.stopTicks).errcmd = s.errcmd := rfl
@[simp] theorem State.stopTicks_diag : (s.stopTicks).diag = s.diag := rfl
@[simp] theorem State.stopTicks_response : (s.stopTicks).response = s.response := rfl
@[simp] theorem State.stopTicks_events : (s.stopTicks).events = s.events := rfl
@[simp] theorem State.stopTicks_ticking : (s.stopTicks).ticking = false := rfl

/-! ### `State.tick` -/

@[simp] theorem State.tick_params : (s.tick).params = s.params := rfl
@[simp] theorem State.tick_chans : (s.tick).chans = s.chans := rfl
@[simp] theorem State.tick_counter : (s.tick).counter = s.counter + 1 := rfl
@[simp] theorem State.tick_compare : (s.tick).compare = s.compare := rfl
@[simp] theorem State.tick_elapsed : (s.tick).elapsed = s.elapsed := rfl
@[simp] theorem State.tick_pending : (s.tick).pending = (s.pending || (s.counter + 1 == s.compare)) := rfl
@[simp] theorem State.tick_pendAge :
    (s.tick).pendAge = if s.due then min (s.pendAge + 1) (s.params.set.dispatchLatencyMax + 1) else s.pendAge := rfl
@[simp] theorem State.tick_en : (s.tick).en = s.en := rfl
@[simp] theorem State.tick_diagEn : (s.tick).diagEn = s.diagEn := rfl
@[simp] theorem State.tick_clamp : (s.tick).clamp = s.clamp := rfl
@[simp] theorem State.tick_errIllegal : (s.tick).errIllegal = s.errIllegal := rfl
@[simp] theorem State.tick_errChannel : (s.tick).errChannel = s.errChannel := rfl
@[simp] theorem State.tick_errPeriod : (s.tick).errPeriod = s.errPeriod := rfl
@[simp] theorem State.tick_errBus : (s.tick).errBus = s.errBus := rfl
@[simp] theorem State.tick_errcmd : (s.tick).errcmd = s.errcmd := rfl
@[simp] theorem State.tick_diag : (s.tick).diag = s.diag := rfl
@[simp] theorem State.tick_response : (s.tick).response = s.response := rfl
@[simp] theorem State.tick_events : (s.tick).events = s.events := rfl
@[simp] theorem State.tick_ticking : (s.tick).ticking = s.ticking := rfl

/-! ### `State.dispatch` -/

@[simp] theorem State.dispatch_params : (s.dispatch).params = s.params := rfl
@[simp] theorem State.dispatch_chans : (s.dispatch).chans = s.drainedChannels := rfl
@[simp] theorem State.dispatch_counter : (s.dispatch).counter = s.counter := rfl
@[simp] theorem State.dispatch_compare :
    (s.dispatch).compare = s.compare + compareAdvance s.params (nextDelay s.drainedChannels) := rfl
@[simp] theorem State.dispatch_elapsed :
    (s.dispatch).elapsed = nextElapsed s.params (nextDelay s.drainedChannels) := rfl
@[simp] theorem State.dispatch_pending : (s.dispatch).pending = false := rfl
@[simp] theorem State.dispatch_pendAge : (s.dispatch).pendAge = 0 := rfl
@[simp] theorem State.dispatch_en : (s.dispatch).en = s.en := rfl
@[simp] theorem State.dispatch_diagEn : (s.dispatch).diagEn = s.diagEn := rfl
@[simp] theorem State.dispatch_clamp : (s.dispatch).clamp = s.clamp := rfl
@[simp] theorem State.dispatch_errIllegal : (s.dispatch).errIllegal = s.errIllegal := rfl
@[simp] theorem State.dispatch_errChannel : (s.dispatch).errChannel = s.errChannel := rfl
@[simp] theorem State.dispatch_errPeriod : (s.dispatch).errPeriod = s.errPeriod := rfl
@[simp] theorem State.dispatch_errBus : (s.dispatch).errBus = s.errBus := rfl
@[simp] theorem State.dispatch_errcmd : (s.dispatch).errcmd = s.errcmd := rfl
@[simp] theorem State.dispatch_diag :
    (s.dispatch).diag = if diagToggles s (nextDelay s.drainedChannels) then !s.diag else s.diag := rfl
@[simp] theorem State.dispatch_response : (s.dispatch).response = s.response := rfl
@[simp] theorem State.dispatch_events : (s.dispatch).events = s.events := rfl
@[simp] theorem State.dispatch_ticking : (s.dispatch).ticking = s.ticking := rfl

end Sys2Proof.Machine
end

