-- ==== Sys2Proof/Laws/Ops.lean ====
section
/-! SUPPORT. What the shared operations over the channel table, the operands and the errors can do, each said
once. -/

namespace Sys2Proof.Machine

/-! ## Parameters -/

/-- Rule R6: what holds of the parameters of every machine. -/
theorem legal_bounds (p : Params) :
    1 ≤ p.set.tickNum ∧ 1 ≤ p.set.tickDen ∧ p.set.refreshTicks ≤ 0xFFFF ∧
    1 ≤ p.set.toggleThreshold ∧ p.set.toggleThreshold ≤ 0xFFFF ∧
    1 ≤ p.set.coalesceWindow ∧ p.set.coalesceWindow ≤ 0xFFFF ∧
    1 ≤ p.set.heartbeatStep ∧ p.set.heartbeatStep ≤ 0xFFFF ∧
    p.set.nearMissEps ≤ 0xFFFF ∧ p.set.minPulseUs ≤ p.set.maxPulseUs ∧ 1 ≤ p.set.angleSpan := by
  have h := p.isLegal
  simp only [ParamSet.legal, Bool.and_eq_true, decide_eq_true_eq] at h
  exact h.2

/-- The register map has a place for every channel (rule R51). -/
theorem nCh_le (p : Params) : p.set.nCh ≤ 16 := by
  have h := p.isLegal
  simp only [ParamSet.legal, ParamSet.fits, Bool.and_eq_true, decide_eq_true_eq] at h
  exact h.1.1

/-- The two sentinels leave `W` one value (rules R22, R34, U11): the width of `Ticks`. -/
theorem w_eq (p : Params) : p.set.w = 16 := by
  have h := p.isLegal
  simp only [ParamSet.legal, ParamSet.fits, Bool.and_eq_true, decide_eq_true_eq] at h
  obtain ⟨⟨-, h1, h2⟩, -⟩ := h
  have h3 : 2 ^ 15 < 2 ^ p.set.w := Nat.lt_trans (by decide) h1
  have h4 : 2 ^ p.set.w ≤ 2 ^ 16 := h2
  have := (Nat.pow_lt_pow_iff_right (a := 2) (by decide)).1 h3
  have := (Nat.pow_le_pow_iff_right (a := 2) (by decide)).1 h4
  omega

@[simp] theorem refreshTicks_toNat (p : Params) : (refreshTicks p).toNat = p.set.refreshTicks := by
  have := legal_bounds p
  simp only [refreshTicks, BitVec.toNat_ofNat]; omega

@[simp] theorem heartbeatStep_toNat (p : Params) : (heartbeatStep p).toNat = p.set.heartbeatStep := by
  have := legal_bounds p
  simp only [heartbeatStep, BitVec.toNat_ofNat]; omega

@[simp] theorem coalesceWindow_toNat (p : Params) : (coalesceWindow p).toNat = p.set.coalesceWindow := by
  have := legal_bounds p
  simp only [coalesceWindow, BitVec.toNat_ofNat]; omega

@[simp] theorem nearMissEps_toNat (p : Params) : (nearMissEps p).toNat = p.set.nearMissEps := by
  have := legal_bounds p
  simp only [nearMissEps, BitVec.toNat_ofNat]; omega

/-! ## The channel table -/

@[simp] theorem getElem_updateAll (f : Channel → Channel) (cs : Channels) (i : Nat)
    (h : i < numChannels) : (updateAll f cs)[i] = f cs[i] := by
  simp [updateAll, Vector.getElem_mk]

@[simp] theorem toList_updateAll (f : Channel → Channel) (cs : Channels) :
    (updateAll f cs).toList = cs.toList.map f := rfl

/-- Two tables with the same channels are the same table. -/
theorem channels_ext {cs ds : Channels} (h : ∀ i : ChannelIx, cs[i] = ds[i]) : cs = ds :=
  Vector.ext fun i hi => h ⟨i, hi⟩

theorem getElem_set_channels (cs : Channels) (i j : ChannelIx) (c : Channel) :
    (cs.set i c)[j] = if j = i then c else cs[j] := by
  simp only [Fin.getElem_fin, Vector.getElem_set]
  by_cases h : j = i
  · simp [h]
  · have : ¬ i.val = j.val := fun e => h (Fin.ext e.symm)
    simp [h, this]

@[simp] theorem channel_setChannel (s : State) (i j : ChannelIx) (c : Channel) :
    (s.setChannel i c).channel j = if j = i then c else s.channel j :=
  getElem_set_channels s.chans i j c

@[simp] theorem channel_arm (s : State) (i j : ChannelIx) (p : Ticks) :
    (s.arm i p).channel j =
      if j = i then { s.channel i with period := p, dir := true } else s.channel j :=
  getElem_set_channels s.chans i j _

@[simp] theorem channel_opInit (s : State) (i : ChannelIx) :
    s.opInit.channel i = (s.channel i).deactivate s.params := by
  simp [State.channel, State.opInit]

@[simp] theorem channel_dispatch (s : State) (i : ChannelIx) :
    s.dispatch.channel i = (s.channel i).drain s.params s.elapsed := by
  simp [State.channel, State.drainedChannels]

@[simp] theorem channel_resetWith (p : Params) (i : ChannelIx) :
    (State.resetWith p).channel i = Channel.atReset p := by
  simp [State.channel, State.resetWith]

/-- The channels depend on the table alone. -/
theorem channel_congr {s t : State} (h : t.chans = s.chans) (i : ChannelIx) :
    t.channel i = s.channel i := by
  simp [State.channel, h]

theorem active_iff (c : Channel) : c.active = true ↔ c.period ≠ 0xFFFF#16 := by
  simp [Channel.active, Config.inactiveSentinel]

theorem inactive_iff (c : Channel) : c.active = false ↔ c.period = 0xFFFF#16 := by
  simp [Channel.active, Config.inactiveSentinel]

/-! ## Operands -/

/-- A CH field names channel `i` exactly when it is that number and the channel exists (rule R102). -/
theorem channelNumber_eq_some {p : Params} {ch : BitVec 8} {i : ChannelIx} :
    channelNumber p ch = some i ↔ ch.toNat = i.val ∧ i.val < p.set.nCh := by
  unfold channelNumber
  constructor
  · intro h
    split at h
    · split at h
      · cases h; exact ⟨rfl, ‹_›⟩
      · cases h
    · cases h
  · rintro ⟨h, hn⟩
    have hlt : ch.toNat < numChannels := h ▸ i.isLt
    rw [dif_pos hlt, if_pos (h ▸ hn)]
    exact congrArg some (Fin.ext h)

/-- A CH field names no channel exactly when it is `N_CH` or more (rule R102). -/
theorem channelNumber_eq_none {p : Params} {ch : BitVec 8} :
    channelNumber p ch = none ↔ p.set.nCh ≤ ch.toNat := by
  have hn : numChannels = 16 := rfl
  have := nCh_le p
  unfold channelNumber
  split
  · split
    · simp only [reduceCtorEq, false_iff]; omega
    · simp only [true_iff]; omega
  · simp only [true_iff]; omega

/-! ## Errors -/

/-- Rule R201, whole: which of the three a command rejection is. -/
theorem raiseCmdError_cases (s : State) (kind : CmdErrorKind) (w : Word) :
    s.raiseCmdError kind w = { s with errIllegal := true, errcmd := w } ∨
    s.raiseCmdError kind w = { s with errChannel := true, errcmd := w } ∨
    s.raiseCmdError kind w = { s with errPeriod := true, errcmd := w } := by
  cases kind
  · exact .inl rfl
  · exact .inr (.inl rfl)
  · exact .inr (.inr rfl)

/-! ## Commands -/

/-- All `SetAngle` can do (rules R102, R122, R123). -/
theorem opSetAngle_cases (s : State) (w : Word) (ch angle : BitVec 8) :
    (s.params.set.nCh ≤ ch.toNat ∧ s.opSetAngle w ch angle = { s with errChannel := true, errcmd := w }) ∨
    (∃ i : ChannelIx, ch.toNat = i.val ∧ i.val < s.params.set.nCh ∧
      0xFFFF ≤ pulseTicks s.params s.clamp angle ∧
      s.opSetAngle w ch angle = { s with errPeriod := true, errcmd := w }) ∨
    (∃ i : ChannelIx, ch.toNat = i.val ∧ i.val < s.params.set.nCh ∧
      pulseTicks s.params s.clamp angle < 0xFFFF ∧
      s.opSetAngle w ch angle = s.arm i (BitVec.ofNat 16 (pulseTicks s.params s.clamp angle))) := by
  cases h : channelNumber s.params ch with
  | none => exact .inl ⟨channelNumber_eq_none.1 h, by simp [State.opSetAngle, h, State.raiseCmdError]⟩
  | some i =>
    obtain ⟨hi, hn⟩ := channelNumber_eq_some.1 h
    by_cases hp : 0xFFFF ≤ pulseTicks s.params s.clamp angle
    · exact .inr (.inl ⟨i, hi, hn, hp, by simp [State.opSetAngle, h, hp, State.raiseCmdError]⟩)
    · exact .inr (.inr ⟨i, hi, hn, by omega, by simp [State.opSetAngle, h, hp]⟩)

/-- All `SetPeriod` can do (rules R102, R128). -/
theorem opSetPeriod_cases (s : State) (w : Word) (ch : BitVec 8) (ticks : Ticks) :
    (s.params.set.nCh ≤ ch.toNat ∧ s.opSetPeriod w ch ticks = { s with errChannel := true, errcmd := w }) ∨
    (∃ i : ChannelIx, ch.toNat = i.val ∧ i.val < s.params.set.nCh ∧ ticks = 0xFFFF#16 ∧
      s.opSetPeriod w ch ticks = { s with errPeriod := true, errcmd := w }) ∨
    (∃ i : ChannelIx, ch.toNat = i.val ∧ i.val < s.params.set.nCh ∧ ticks ≠ 0xFFFF#16 ∧
      s.opSetPeriod w ch ticks = s.arm i ticks) := by
  cases h : channelNumber s.params ch with
  | none => exact .inl ⟨channelNumber_eq_none.1 h, by simp [State.opSetPeriod, h, State.raiseCmdError]⟩
  | some i =>
    obtain ⟨hi, hn⟩ := channelNumber_eq_some.1 h
    by_cases hp : ticks = 0xFFFF#16
    · exact .inr (.inl ⟨i, hi, hn, hp, by
        simp [State.opSetPeriod, h, hp, State.raiseCmdError, Config.inactiveSentinel]⟩)
    · exact .inr (.inr ⟨i, hi, hn, hp, by simp [State.opSetPeriod, h, hp, Config.inactiveSentinel]⟩)

/-- All `ExecuteCommand` can do (rule R100): the one error bit and ERRCMD, INIT, a channel armed, or
nothing. -/
theorem executeCommand_cases (s : State) (w : Word) :
    s.executeCommand w = { s with errIllegal := true, errcmd := w } ∨
    s.executeCommand w = { s with errChannel := true, errcmd := w } ∨
    s.executeCommand w = { s with errPeriod := true, errcmd := w } ∨
    (decodeCommand w = .ok .nop ∧ s.executeCommand w = s) ∨
    (decodeCommand w = .ok .init ∧ s.executeCommand w = s.opInit) ∨
    (∃ ch angle, ∃ i : ChannelIx, decodeCommand w = .ok (.setAngle ch angle) ∧ ch.toNat = i.val ∧
      i.val < s.params.set.nCh ∧ pulseTicks s.params s.clamp angle < 0xFFFF ∧
      s.executeCommand w = s.arm i (BitVec.ofNat 16 (pulseTicks s.params s.clamp angle))) ∨
    (∃ ch ticks, ∃ i : ChannelIx, decodeCommand w = .ok (.setPeriod ch ticks) ∧ ch.toNat = i.val ∧
      i.val < s.params.set.nCh ∧ ticks ≠ 0xFFFF#16 ∧ s.executeCommand w = s.arm i ticks) := by
  unfold State.executeCommand
  cases h : decodeCommand w with
  | error r => exact .inl rfl
  | ok c =>
    cases c with
    | nop => exact .inr (.inr (.inr (.inl ⟨rfl, rfl⟩)))
    | init => exact .inr (.inr (.inr (.inr (.inl ⟨rfl, rfl⟩))))
    | setAngle ch angle =>
      obtain ⟨-, e⟩ | ⟨i, -, -, -, e⟩ | ⟨i, hi, hn, hp, e⟩ := opSetAngle_cases s w ch angle
      · exact .inr (.inl e)
      · exact .inr (.inr (.inl e))
      · exact .inr (.inr (.inr (.inr (.inr (.inl ⟨ch, angle, i, rfl, hi, hn, hp, e⟩)))))
    | setPeriod ch ticks =>
      obtain ⟨-, e⟩ | ⟨i, -, -, -, e⟩ | ⟨i, hi, hn, hp, e⟩ := opSetPeriod_cases s w ch ticks
      · exact .inr (.inl e)
      · exact .inr (.inr (.inl e))
      · exact .inr (.inr (.inr (.inr (.inr (.inr ⟨ch, ticks, i, rfl, hi, hn, hp, e⟩)))))

end Sys2Proof.Machine
end

