-- ==== Sys2Proof/Laws/PerInstr.lean ====
section
/-! SUPPORT. The per-instruction family `TableRow`: every well-formed operation is encoded in its own row of
spec/opcode_table.json, one lemma per constructor. -/

namespace Sys2Proof.Laws

/-- The bits the opcode table sees: a command's four bytes, or a bus transaction's key. -/
def headWord : List Byte → Word
  | [b0, b1, b2, b3] => wordOfBytes b0 b1 b2 b3
  | b0 :: b1 :: _ => (b1 ++ b0).setWidth 32
  | _ => 0

/-- A row's mask and match, as spec/opcode_table.json gives them. -/
def tableRow : Instr → Word × Word
  | .nop => (0xFFFFFFFF, 0x00000000)
  | .init => (0xFFFFFFFF, 0x10000000)
  | .setAngle _ _ => (0xFF00FF00, 0x20000000)
  | .setPeriod _ _ => (0xFF000000, 0x30000000)
  | .rdCmd => (0x7FF, 0x300)
  | .wrCmd _ => (0x7FF, 0x700)
  | .rdCtrl => (0x7FF, 0x304)
  | .wrCtrl _ => (0x7FF, 0x704)
  | .rdStatus => (0x7FF, 0x308)
  | .wrStatus _ => (0x7FF, 0x708)
  | .rdErrcmd => (0x7FF, 0x30C)
  | .wrErrcmd _ => (0x7FF, 0x70C)
  | .rdCounter => (0x7FF, 0x310)
  | .wrCounter _ => (0x7FF, 0x710)
  | .rdCompare => (0x7FF, 0x314)
  | .wrCompare _ => (0x7FF, 0x714)
  | .rdElapsed => (0x7FF, 0x318)
  | .wrElapsed _ => (0x7FF, 0x718)
  | .rdPins => (0x7FF, 0x31C)
  | .wrPins _ => (0x7FF, 0x71C)
  | .rdCh _ => (0x7C3, 0x340)
  | .wrCh _ _ => (0x7C3, 0x740)
  | .rdUnmappedLow _ => (0x7E3, 0x320)
  | .wrUnmappedLow _ _ => (0x7E3, 0x720)
  | .rdUnmappedHigh _ => (0x783, 0x380)
  | .wrUnmappedHigh _ _ => (0x783, 0x780)

/-- The operation, where it has an encoding, is encoded in its row. -/
def TableRow.Statement (i : Instr) : Prop :=
  i.wellFormed = true → headWord (encode i) &&& (tableRow i).1 = (tableRow i).2

theorem TableRow.nop : TableRow.Statement .nop := fun _ => by decide

theorem TableRow.init : TableRow.Statement .init := fun _ => by decide

/-- A command word passes through its bytes. -/
theorem headWord_bytesOfWord (w : Word) : headWord (bytesOfWord w) = w := wordOfBytes_byteOfWord w

theorem TableRow.setAngle (ch angle : BitVec 8) : TableRow.Statement (.setAngle ch angle) := fun _ => by
  change headWord (bytesOfWord (setAngleWord ch angle)) &&& 0xFF00FF00#32 = 0x20000000#32
  rw [headWord_bytesOfWord]
  unfold setAngleWord
  ext i hi
  interval_cases i <;> simp

theorem TableRow.setPeriod (ch : BitVec 8) (ticks : Ticks) :
    TableRow.Statement (.setPeriod ch ticks) := fun _ => by
  change headWord (bytesOfWord (setPeriodWord ch ticks)) &&& 0xFF000000#32 = 0x30000000#32
  rw [headWord_bytesOfWord]
  unfold setPeriodWord
  ext i hi
  interval_cases i <;> simp

/-- The key of a write does not depend on its data. -/
theorem writeRow (off : Byte) (p : Word) (h : headWord (encodeWrite off 0) &&& 0x7FF#32 = p)
    (v : Word) : headWord (encodeWrite off v) &&& 0x7FF#32 = p := h

theorem TableRow.rdCmd : TableRow.Statement .rdCmd := fun _ => rfl

theorem TableRow.wrCmd (w : Word) : TableRow.Statement (.wrCmd w) := fun _ =>
  writeRow 0x00 0x700 (by decide) w

theorem TableRow.rdCtrl : TableRow.Statement .rdCtrl := fun _ => rfl

theorem TableRow.wrCtrl (v : Word) : TableRow.Statement (.wrCtrl v) := fun _ =>
  writeRow 0x04 0x704 (by decide) v

theorem TableRow.rdStatus : TableRow.Statement .rdStatus := fun _ => rfl

theorem TableRow.wrStatus (v : Word) : TableRow.Statement (.wrStatus v) := fun _ =>
  writeRow 0x08 0x708 (by decide) v

theorem TableRow.rdErrcmd : TableRow.Statement .rdErrcmd := fun _ => rfl

theorem TableRow.wrErrcmd (v : Word) : TableRow.Statement (.wrErrcmd v) := fun _ =>
  writeRow 0x0C 0x70C (by decide) v

theorem TableRow.rdCounter : TableRow.Statement .rdCounter := fun _ => rfl

theorem TableRow.wrCounter (v : Word) : TableRow.Statement (.wrCounter v) := fun _ =>
  writeRow 0x10 0x710 (by decide) v

theorem TableRow.rdCompare : TableRow.Statement .rdCompare := fun _ => rfl

theorem TableRow.wrCompare (v : Word) : TableRow.Statement (.wrCompare v) := fun _ =>
  writeRow 0x14 0x714 (by decide) v

theorem TableRow.rdElapsed : TableRow.Statement .rdElapsed := fun _ => rfl

theorem TableRow.wrElapsed (v : Word) : TableRow.Statement (.wrElapsed v) := fun _ =>
  writeRow 0x18 0x718 (by decide) v

theorem TableRow.rdPins : TableRow.Statement .rdPins := fun _ => rfl

theorem TableRow.wrPins (v : Word) : TableRow.Statement (.wrPins v) := fun _ =>
  writeRow 0x1C 0x71C (by decide) v

theorem TableRow.rdCh (i : ChannelIx) : TableRow.Statement (.rdCh i) := fun _ => by
  revert i
  decide

theorem TableRow.wrCh (i : ChannelIx) (v : Word) : TableRow.Statement (.wrCh i v) := fun _ => by
  have h : ∀ j : ChannelIx, headWord (encode (.wrCh j 0)) &&& 0x7C3#32 = 0x740#32 := by decide
  exact h i

/-- The unmapped offsets a well-formed operation has, one by one. -/
theorem unmappedLow_rows : ∀ off : Byte, unmappedLow off = true →
    headWord (encodeRead off) &&& 0x7E3#32 = 0x320#32 ∧
    headWord (encodeWrite off 0) &&& 0x7E3#32 = 0x720#32 := by
  decide

/-- The unmapped offsets a well-formed operation has, one by one. -/
theorem unmappedHigh_rows : ∀ off : Byte, unmappedHigh off = true →
    headWord (encodeRead off) &&& 0x783#32 = 0x380#32 ∧
    headWord (encodeWrite off 0) &&& 0x783#32 = 0x780#32 := by
  decide

theorem TableRow.rdUnmappedLow (off : Byte) : TableRow.Statement (.rdUnmappedLow off) :=
  fun h => (unmappedLow_rows off h).1

theorem TableRow.wrUnmappedLow (off : Byte) (v : Word) :
    TableRow.Statement (.wrUnmappedLow off v) :=
  fun h => (unmappedLow_rows off h).2

theorem TableRow.rdUnmappedHigh (off : Byte) : TableRow.Statement (.rdUnmappedHigh off) :=
  fun h => (unmappedHigh_rows off h).1

theorem TableRow.wrUnmappedHigh (off : Byte) (v : Word) :
    TableRow.Statement (.wrUnmappedHigh off v) :=
  fun h => (unmappedHigh_rows off h).2

end Sys2Proof.Laws
end

