-- ==== Sys2Proof/Laws/Registers.lean ====
section
/-! SUPPORT. The bits of the registers as they read. -/

namespace Sys2Proof.Machine

/-- Bit `i` of packed bits is the list's entry `i`. -/
theorem testBit_packBits (bs : List Bool) (i : Nat) : (packBits bs).testBit i = bs.getD i false := by
  induction bs generalizing i with
  | nil => simp [packBits]
  | cons b bs ih =>
    cases i with
    | zero => cases b <;> simp [packBits, Nat.add_mul_mod_self_left]
    | succ i =>
      have h : (b.toNat + 2 * packBits bs) / 2 = packBits bs := by
        cases b <;> simp only [Bool.toNat_true, Bool.toNat_false] <;> omega
      simp [packBits, Nat.testBit_succ, h, ih]

/-- A bit of STATUS as it reads (rule R75). -/
theorem getLsbD_statusWord (s : State) (i : Nat) :
    s.statusWord.getLsbD i =
      (decide (i < 32) &&
        [s.pending, s.errIllegal, s.errChannel, s.errPeriod, s.errBus, s.diag].getD i false) := by
  simp only [State.statusWord, BitVec.getLsbD_ofNat, testBit_packBits]

/-- A bit of CTRL as it reads (rule R74). -/
theorem getLsbD_ctrlWord (s : State) (i : Nat) :
    s.ctrlWord.getLsbD i = (decide (i < 32) && [s.en, s.diagEn, s.clamp].getD i false) := by
  simp only [State.ctrlWord, BitVec.getLsbD_ofNat, testBit_packBits]

/-- A bit of PINS as it reads (rule R80). -/
theorem getLsbD_pinsWord (s : State) (i : Nat) :
    s.pinsWord.getLsbD i =
      (decide (i < 32) &&
        (s.chans.toList.map Channel.level ++ s.chans.toList.map Channel.dir).getD i false) := by
  simp only [State.pinsWord, BitVec.getLsbD_ofNat, testBit_packBits]

end Sys2Proof.Machine
end

