-- ==== Sys2Proof/Laws/Scheduler.lean ====
section
/-! SUPPORT. What DISPATCH computes: one channel's update and the minimal delay, each said once. -/

namespace Sys2Proof.Machine

/-! ## One channel -/

/-- Draining never changes a period (rule R22, conflict C3). -/
@[simp] theorem drain_period (p : Params) (e : Ticks) (c : Channel) :
    (c.drain p e).period = c.period := by
  unfold Channel.drain
  repeat' split
  all_goals rfl

/-- Draining never changes a direction (rule R24). -/
@[simp] theorem drain_dir (p : Params) (e : Ticks) (c : Channel) : (c.drain p e).dir = c.dir := by
  unfold Channel.drain
  repeat' split
  all_goals rfl

/-- An inactive channel is not changed (rule R150). -/
theorem drain_of_inactive (p : Params) (e : Ticks) {c : Channel} (h : c.period = 0xFFFF#16) :
    c.drain p e = c := by
  simp [Channel.drain, (inactive_iff c).2 h]

/-- An active channel, whole (rules R150, R151). -/
theorem drain_of_active (p : Params) (e : Ticks) {c : Channel} (h : c.period ≠ 0xFFFF#16) :
    c.drain p e =
      if (c.countdown - e).toNat < p.set.toggleThreshold then
        { c with level := !c.level, countdown := if c.level then refreshTicks p else c.period }
      else { c with countdown := c.countdown - e } := by
  simp only [Channel.drain, (active_iff c).2 h, if_true]
  split
  · cases c.level <;> rfl
  · rfl

/-! ## The minimal delay -/

theorem minDelay_le (nd : Delay) (c : Channel) : (minDelay nd c).toNat ≤ nd.toNat := by
  unfold minDelay
  split
  · rename_i h; exact Nat.le_of_lt (BitVec.lt_def.1 h.2)
  · exact Nat.le_refl _

theorem minDelay_le_active (nd : Delay) {c : Channel} (h : c.active = true) :
    (minDelay nd c).toNat ≤ c.countdown.toNat := by
  unfold minDelay
  have hw : (c.countdown.setWidth 17).toNat = c.countdown.toNat := by
    rw [BitVec.toNat_setWidth]; have := c.countdown.isLt; omega
  split
  · exact Nat.le_of_eq hw
  · rename_i hn
    have : ¬ c.countdown.setWidth 17 < nd := fun hl => hn ⟨h, hl⟩
    rw [BitVec.lt_def, hw] at this
    omega

/-- The fold of `minDelay` over a list of channels: it is the start value or an active countdown, and no
larger than either. -/
theorem foldl_minDelay (cs : List Channel) (nd : Delay) :
    (cs.foldl minDelay nd).toNat ≤ nd.toNat ∧
    (∀ c ∈ cs, c.active = true → (cs.foldl minDelay nd).toNat ≤ c.countdown.toNat) ∧
    (cs.foldl minDelay nd = nd ∨
      ∃ c ∈ cs, c.active = true ∧ (cs.foldl minDelay nd).toNat = c.countdown.toNat) := by
  induction cs generalizing nd with
  | nil => exact ⟨Nat.le_refl _, by simp, .inl rfl⟩
  | cons c cs ih =>
    obtain ⟨h1, h2, h3⟩ := ih (minDelay nd c)
    refine ⟨Nat.le_trans h1 (minDelay_le nd c), ?_, ?_⟩
    · intro d hd ha
      rcases List.mem_cons.1 hd with rfl | hd
      · exact Nat.le_trans h1 (minDelay_le_active nd ha)
      · exact h2 d hd ha
    · rcases h3 with h3 | ⟨d, hd, ha, e⟩
      · simp only [List.foldl_cons, h3]
        unfold minDelay
        split
        · rename_i hc
          refine .inr ⟨c, List.mem_cons_self, hc.1, ?_⟩
          rw [BitVec.toNat_setWidth]; have := c.countdown.isLt; omega
        · exact .inl rfl
      · exact .inr ⟨d, List.mem_cons_of_mem _ hd, ha, e⟩

theorem mem_toList_iff (cs : Channels) (c : Channel) :
    c ∈ cs.toList ↔ ∃ i : ChannelIx, cs[i] = c := by
  constructor
  · intro h
    obtain ⟨n, hn, e⟩ := List.mem_iff_getElem.1 h
    have hn' : n < numChannels := by simpa using hn
    exact ⟨⟨n, hn'⟩, by simpa using e⟩
  · rintro ⟨i, rfl⟩
    exact Vector.mem_toList_iff.2 (Vector.getElem_mem i.isLt)

/-- Rules R34, R152: with no active channel the delay is the idle sentinel. -/
theorem nextDelay_idle {cs : Channels} (h : ∀ i : ChannelIx, cs[i].period = 0xFFFF#16) :
    nextDelay cs = Config.idleSentinel := by
  obtain ⟨-, -, e | ⟨c, hc, ha, -⟩⟩ := foldl_minDelay cs.toList Config.idleSentinel
  · exact e
  · obtain ⟨i, rfl⟩ := (mem_toList_iff cs c).1 hc
    exact absurd (h i) ((active_iff _).1 ha)

/-- Rules R34, R152: with an active channel the delay is the smallest active countdown. -/
theorem nextDelay_active {cs : Channels} {i : ChannelIx} (h : cs[i].period ≠ 0xFFFF#16) :
    (∃ j : ChannelIx, cs[j].period ≠ 0xFFFF#16 ∧ (nextDelay cs).toNat = cs[j].countdown.toNat) ∧
    ∀ j : ChannelIx, cs[j].period ≠ 0xFFFF#16 → (nextDelay cs).toNat ≤ cs[j].countdown.toNat := by
  obtain ⟨-, h2, h3⟩ := foldl_minDelay cs.toList Config.idleSentinel
  have hle : ∀ j : ChannelIx, cs[j].period ≠ 0xFFFF#16 →
      (nextDelay cs).toNat ≤ cs[j].countdown.toNat := fun j hj =>
    h2 _ ((mem_toList_iff cs _).2 ⟨j, rfl⟩) ((active_iff _).2 hj)
  refine ⟨?_, hle⟩
  rcases h3 with e | ⟨c, hc, ha, e⟩
  · have := hle i h
    have hlt := (cs[i].countdown).isLt
    rw [show nextDelay cs = Config.idleSentinel from e] at this
    simp [Config.idleSentinel] at this
    omega
  · obtain ⟨j, rfl⟩ := (mem_toList_iff cs c).1 hc
    exact ⟨j, (active_iff _).1 ha, e⟩

end Sys2Proof.Machine
end

