-- ==== Sys2Proof/Laws/Step.lean ====
section
/-! SUPPORT. What a host access and a step can do, said once: the inversion lemmas the proofs cite instead of
unfolding `exec` and `step`. -/

namespace Sys2Proof.Machine

/-- Rules R54, R56, R66 to R69: all a host access at its turn can do. It writes CMD, CTRL, STATUS or
COMPARE at the one offset of each, or is a bus error, or only answers. -/
theorem performAccess_cases (a : BusAccess) (s : State) :
    (∃ w, a = .write 0x00 4 w ∧ performAccess a s = .next (s.executeCommand w).answerWrite) ∨
    (∃ v, a = .write 0x04 4 v ∧ performAccess a s = .next (s.setCtrl v).answerWrite) ∨
    (∃ v, a = .write 0x08 4 v ∧ performAccess a s = .next (s.clearStatus v).answerWrite) ∨
    (∃ v, a = .write 0x14 4 v ∧ performAccess a s = .next (s.setCompare v).answerWrite) ∨
    performAccess a s = .next (s.raiseBusError a) ∨
    ∃ r, performAccess a s = .next { s with response := some r } := by
  cases hd : decodeAccess a with
  | error r =>
    have : performAccess a s = .next (s.raiseBusError a) := by simp only [performAccess, hd]
    exact .inr (.inr (.inr (.inr (.inl this))))
  | ok i =>
    have hp : performAccess a s = exec i s := by simp only [performAccess, hd]
    obtain ⟨wr, off, n, v, k, ha, hk, hdk⟩ : ∃ wr off n v k,
        (wr = true → a = .write off n v) ∧ keyOf wr off n = some k ∧ decodeKey k v = .ok i := by
      obtain ⟨off, n, k, rfl, hk, h⟩ | ⟨off, n, v, k, rfl, hk, h⟩ := decodeAccess_eq_ok hd
      · exact ⟨false, off, n, 0, k, by simp, hk, h⟩
      · exact ⟨true, off, n, v, k, by simp, hk, h⟩
    rw [hp]
    obtain ⟨rfl, rfl⟩ | ⟨rfl, rfl⟩ | ⟨rfl, rfl⟩ | ⟨rfl, rfl⟩ | hq := decodeKey_kinds hdk
    · obtain ⟨rfl, rfl, rfl⟩ := access_of_write_key (p := 0x00) hk rfl (by omega)
      exact .inl ⟨v, ha rfl, rfl⟩
    · obtain ⟨rfl, rfl, rfl⟩ := access_of_write_key (p := 0x04) hk rfl (by omega)
      exact .inr (.inl ⟨v, ha rfl, rfl⟩)
    · obtain ⟨rfl, rfl, rfl⟩ := access_of_write_key (p := 0x08) hk rfl (by omega)
      exact .inr (.inr (.inl ⟨v, ha rfl, rfl⟩))
    · obtain ⟨rfl, rfl, rfl⟩ := access_of_write_key (p := 0x14) hk rfl (by omega)
      exact .inr (.inr (.inr (.inl ⟨v, ha rfl, rfl⟩)))
    · refine .inr (.inr (.inr (.inr (.inr ?_))))
      rcases hq with hl | ⟨c, rfl | rfl⟩ | ⟨o, rfl | rfl | rfl | rfl⟩
      · simp only [List.mem_cons, List.not_mem_nil, or_false] at hl
        rcases hl with rfl | rfl | rfl | rfl | rfl | rfl | rfl | rfl | rfl | rfl | rfl | rfl <;>
          exact ⟨_, rfl⟩
      all_goals exact ⟨_, rfl⟩

/-- Every host access at its turn ends in a next state. -/
theorem performAccess_next (a : BusAccess) (s : State) : ∃ t, performAccess a s = .next t := by
  obtain ⟨_, -, e⟩ | ⟨_, -, e⟩ | ⟨_, -, e⟩ | ⟨_, -, e⟩ | e | ⟨_, e⟩ := performAccess_cases a s <;>
    exact ⟨_, e⟩

/-- The steps that end in a next state (rule R10): reset, a TICK, a DISPATCH, a host access, or the tick input
stopping. -/
theorem step_cases {s t : State} (h : step s = .next t) :
    (s.nextTurn = .reset ∧ t = s.takeEvent.applyReset) ∨
    (s.nextTurn = .tick ∧ t = s.takeEvent.tick) ∨
    (s.nextTurn = .dispatch ∧ t = s.dispatch) ∨
    (s.nextTurn = .tickStops ∧ t = s.takeEvent.stopTicks) ∨
    ∃ a, s.nextTurn = .access a ∧ performAccess a s.takeEvent = .next t := by
  unfold step at h
  split at h
  · cases h; exact .inl ⟨‹_›, rfl⟩
  · cases h; exact .inr (.inr (.inr (.inl ⟨‹_›, rfl⟩)))
  · cases h; exact .inr (.inl ⟨‹_›, rfl⟩)
  · cases h; exact .inr (.inr (.inl ⟨‹_›, rfl⟩))
  · exact .inr (.inr (.inr (.inr ⟨_, ‹_›, h⟩)))
  · cases h

/-- What is listed where each turn is next, and when the DISPATCH is: the arbitration, whole (rules R61, R146,
R208, R230, R235). -/
theorem nextTurn_cases (s : State) :
    (s.nextTurn = .reset ∧ ∃ o rest, s.events = .reset o :: rest ∧
      (s.dispatchEnabled = true → o = true)) ∨
    (s.nextTurn = .tickStops ∧ ∃ o rest, s.events = .tickStops o :: rest ∧
      (s.dispatchEnabled = true → o = true)) ∨
    (s.nextTurn = .tick ∧ s.ticking = true ∧
      (s.due = false ∨ s.pendAge < s.params.set.dispatchLatencyMax)) ∨
    (s.nextTurn = .dispatch ∧ s.due = true ∧ s.ticking = true) ∨
    (∃ a rest, s.nextTurn = .access a ∧ s.events = .access a :: rest ∧ s.due = false) ∨
    (s.nextTurn = .stuck ∧ s.ticking = false) := by
  unfold State.nextTurn State.dispatchEnabled State.tickMayOvertake
  split
  · rename_i o rest he
    cases hd : s.due <;> cases ht : s.ticking <;> cases o <;> simp [he]
  · rename_i o rest he
    cases hd : s.due <;> cases ht : s.ticking <;> cases o <;> simp [he]
  · rename_i o rest he
    cases hd : s.due <;> cases ht : s.ticking <;> cases o <;> simp
    by_cases hl : s.pendAge < s.params.set.dispatchLatencyMax
    · simp [Nat.not_le.2 hl, hl]
    · simp [Nat.not_lt.1 hl]
  · rename_i a rest he
    cases hd : s.due <;> cases ht : s.ticking <;> simp [he]
  · cases hd : s.due <;> cases ht : s.ticking <;> simp

/-- When the DISPATCH is next: it is due (rule R146) and the tick input runs (rule R235). -/
theorem enabled_of_dispatch {s : State} (h : s.nextTurn = .dispatch) : s.due = true ∧ s.ticking = true := by
  rcases nextTurn_cases s with ⟨e, -⟩ | ⟨e, -⟩ | ⟨e, -⟩ | ⟨-, hd⟩ | ⟨_, _, e, -⟩ | ⟨e, -⟩
  case inr.inr.inr.inl => exact hd
  all_goals rw [h] at e; cases e

/-- When the DISPATCH is next: it is due (rule R146). -/
theorem due_of_dispatch {s : State} (h : s.nextTurn = .dispatch) : s.due = true := (enabled_of_dispatch h).1

/-- When a host access is next: none is due (rule R61), and it is the first of the list. -/
theorem access_turn {s : State} {a : BusAccess} (h : s.nextTurn = .access a) :
    s.due = false ∧ ∃ rest, s.events = .access a :: rest := by
  rcases nextTurn_cases s with ⟨e, -⟩ | ⟨e, -⟩ | ⟨e, -⟩ | ⟨e, -⟩ | ⟨_, rest, e, hl, hd⟩ | ⟨e, -⟩ <;>
    rw [h] at e <;> cases e
  exact ⟨hd, rest, hl⟩

/-- When a TICK is next: no DISPATCH is due, or the tick overtakes it within the bound (rule R146). -/
theorem tick_turn {s : State} (h : s.nextTurn = .tick) :
    s.due = false ∨ s.pendAge < s.params.set.dispatchLatencyMax := by
  rcases nextTurn_cases s with ⟨e, -⟩ | ⟨e, -⟩ | ⟨-, -, hd⟩ | ⟨e, -⟩ | ⟨_, _, e, -⟩ | ⟨e, -⟩
  case inr.inr.inl => exact hd
  all_goals rw [h] at e; cases e

/-- When a TICK is next: the tick input runs (rule R235). -/
theorem ticking_of_tick {s : State} (h : s.nextTurn = .tick) : s.ticking = true := by
  rcases nextTurn_cases s with ⟨e, -⟩ | ⟨e, -⟩ | ⟨-, ht, -⟩ | ⟨e, -⟩ | ⟨_, _, e, -⟩ | ⟨e, -⟩
  case inr.inr.inl => exact ht
  all_goals rw [h] at e; cases e

/-- When reset is next: it is the first of the list, and it overtakes a DISPATCH that is enabled (rule
R230). -/
theorem reset_turn {s : State} :
    s.nextTurn = .reset ↔
      ∃ overtakes rest, s.events = .reset overtakes :: rest ∧
        (s.dispatchEnabled = true → overtakes = true) := by
  constructor
  · intro h
    rcases nextTurn_cases s with ⟨-, hr⟩ | ⟨e, -⟩ | ⟨e, -⟩ | ⟨e, -⟩ | ⟨_, _, e, -⟩ | ⟨e, -⟩
    case inl => exact hr
    all_goals rw [h] at e; cases e
  · rintro ⟨o, rest, e, h⟩
    unfold State.nextTurn
    rw [e]
    cases hd : s.dispatchEnabled <;> simp [hd] at h ⊢
    exact h

/-! ## Places that hold no channel -/

/-- In a build with fewer than 16 channels the other places keep their reset values (assumption 3). -/
def MissingChannelsAtReset (s : State) : Prop :=
  ∀ i : ChannelIx, s.params.set.nCh ≤ i.val → s.channel i = Channel.atReset s.params

theorem resetWith_missing_channels (p : Params) : MissingChannelsAtReset (State.resetWith p) :=
  fun i _ => channel_resetWith p i

/-- A command keeps them: INIT writes the values they have, and no SET reaches them. -/
theorem executeCommand_keeps_missing_channels {s : State} (h : MissingChannelsAtReset s) (w : Word) :
    MissingChannelsAtReset (s.executeCommand w) := by
  have arm : ∀ (j : ChannelIx) p, j.val < s.params.set.nCh → MissingChannelsAtReset (s.arm j p) := by
    intro j p hj i hi
    have hi' : s.params.set.nCh ≤ i.val := hi
    rw [channel_arm, if_neg (fun e => by subst e; omega)]
    exact h i hi
  obtain e | e | e | ⟨-, e⟩ | ⟨-, e⟩ | ⟨_, _, j, -, -, hj, -, e⟩ | ⟨_, _, j, -, -, hj, -, e⟩ :=
    executeCommand_cases s w <;> rw [e]
  · exact h
  · exact h
  · exact h
  · exact h
  · intro i hi
    rw [channel_opInit, h i hi]
    rfl
  · exact arm j _ hj
  · exact arm j _ hj

/-- Every step keeps them. -/
theorem step_keeps_missing_channels {s t : State} (h : MissingChannelsAtReset s) (hs : step s = .next t) :
    MissingChannelsAtReset t := by
  obtain ⟨-, rfl⟩ | ⟨-, rfl⟩ | ⟨-, rfl⟩ | ⟨-, rfl⟩ | ⟨a, -, e⟩ := step_cases hs
  · exact resetWith_missing_channels s.params
  · exact h
  · intro i hi
    rw [channel_dispatch, h i hi]
    rfl
  · exact h
  · obtain ⟨w, -, e'⟩ | ⟨_, -, e'⟩ | ⟨_, -, e'⟩ | ⟨_, -, e'⟩ | e' | ⟨_, e'⟩ :=
      performAccess_cases a s.takeEvent <;> rw [e'] at e <;> cases e
    · exact executeCommand_keeps_missing_channels (s := s.takeEvent) h w
    all_goals exact h

end Sys2Proof.Machine
end

