-- ==== Sys2Proof/Tests/Slice0.lean ====
section
/-! SUPPORT. The model's own tests: words and keys written out from the spec's encodings, the spec's test vectors
(95_test_vectors.md, named by their ids), ill-formed operations, and for every statement with hypotheses
a state that meets them. The configuration is CFG-T unless a test says otherwise, as there. -/

namespace Sys2Proof.Tests

open Sys2Proof.Machine

/-! ## Helpers -/

/-- CFG-T's reset state. -/
def rst : State := State.resetWith cfgT

/-- A CFG-T state with the channels 0 and 1 set, ELAPSED and COMPARE as given and a DISPATCH due. -/
def dueWith (c0 c1 : Channel) (elapsed compare : Ticks) : State :=
  { ((rst.setChannel 0 c0).setChannel 1 c1) with
    elapsed := elapsed, compare := compare, counter := compare, en := true, pending := true }

/-- An armed channel. -/
def armed (countdown period : Ticks) (level : Bool) : Channel := ⟨countdown, period, level, true⟩

/-- An inactive channel of CFG-T. -/
def off : Channel := Channel.atReset cfgT

/-- The state of an outcome that is a next state. -/
def nextOf (s : State) : Host.Outcome State Fault Refusal → State
  | .next t => t
  | .fault _ => s
  | .refused _ => s

/-- The state a CMD write leaves. -/
def cmd (s : State) (w : Word) : State := nextOf s (performAccess (.write 0x00 4 w) s)

/-- The machine of a tick rate in whole ticks per microsecond, REFRESH_US 1000. -/
def rate28 : Params := ⟨specParams 28 1 1000, by decide⟩

/-- CFG-T with REFRESH_US 100, outside rule R160's premise. -/
def short : Params := ⟨specParams 1 1 100, by decide⟩

/-- CFG-T with eight channels. -/
def eight : Params := ⟨{ specParams 1 1 1000 with nCh := 8 }, by decide⟩

/-! ## Legality (rule R6, S10) -/

/-- The sentinels leave `W` the value 16, and the register map has 16 places (assumption 3). -/
theorem test_other_widths_build_nothing :
    Params.ofSet { specParams 1 1 1000 with w := 15 } = none ∧
    Params.ofSet { specParams 1 1 1000 with w := 17 } = none ∧
    Params.ofSet { specParams 1 1 1000 with nCh := 17 } = none := by decide

theorem test_illegal_refresh_builds_nothing : Params.ofSet (specParams 66 1 1000) = none := by decide

theorem test_legal_set_is_accepted : (Params.ofSet (specParams 2 1 20000)).isSome = true := by decide

/-! ## WellFormed: an ill-formed term for each check -/

theorem test_ill_formed_low_misaligned : (Instr.rdUnmappedLow 0x22).wellFormed = false := by decide
theorem test_ill_formed_low_below : (Instr.wrUnmappedLow 0x1C 0).wellFormed = false := by decide
theorem test_ill_formed_low_above : (Instr.rdUnmappedLow 0x40).wellFormed = false := by decide
theorem test_ill_formed_high_misaligned : (Instr.rdUnmappedHigh 0x81).wellFormed = false := by decide
theorem test_ill_formed_high_below : (Instr.wrUnmappedHigh 0x7C 0).wellFormed = false := by decide
theorem test_ill_formed_high_above : (Instr.rdUnmappedHigh 0xFE).wellFormed = false := by decide

/-! ## Decoding: words and keys from rules R91 and R95 -/

theorem test_decode_nop : decodeTableWord 32 0b0000_0000_00000000_0000000000000000 = some .nop := by
  decide
theorem test_decode_init : decodeTableWord 32 0b0001_0000_00000000_0000000000000000 = some .init := by
  decide
theorem test_decode_setAngle :
    decodeTableWord 32 0b0010_0000_00000011_00000000_01011010 = some (.setAngle 3 90) := by decide
theorem test_decode_setPeriod :
    decodeTableWord 32 0b0011_0000_00000101_0000001111101000 = some (.setPeriod 5 1000) := by decide
theorem test_decode_rdCmd : decodeTableWord 16 0b0_11_00000000 = some .rdCmd := by decide
theorem test_decode_wrCmd : decodeBytes [0x00, 0x07, 0x5A, 0x00, 0x03, 0x20] =
    .ok (.wrCmd 0x2003005A) := by decide
theorem test_decode_rdCtrl : decodeTableWord 16 0b0_11_00000100 = some .rdCtrl := by decide
theorem test_decode_wrCtrl : decodeBytes [0x04, 0x07, 5, 0, 0, 0] = .ok (.wrCtrl 5) := by decide
theorem test_decode_rdStatus : decodeTableWord 16 0b0_11_00001000 = some .rdStatus := by decide
theorem test_decode_wrStatus : decodeBytes [0x08, 0x07, 0x1E, 0, 0, 0] = .ok (.wrStatus 0x1E) := by
  decide
theorem test_decode_rdErrcmd : decodeTableWord 16 0b0_11_00001100 = some .rdErrcmd := by decide
theorem test_decode_wrErrcmd : decodeTableWord 16 0b1_11_00001100 = some (.wrErrcmd 0) := by decide
theorem test_decode_rdCounter : decodeTableWord 16 0b0_11_00010000 = some .rdCounter := by decide
theorem test_decode_wrCounter : decodeTableWord 16 0b1_11_00010000 = some (.wrCounter 0) := by decide
theorem test_decode_rdCompare : decodeTableWord 16 0b0_11_00010100 = some .rdCompare := by decide
theorem test_decode_wrCompare : decodeBytes [0x14, 0x07, 0xFA, 0x01, 0x34, 0x12] =
    .ok (.wrCompare 0x123401FA) := by decide
theorem test_decode_rdElapsed : decodeTableWord 16 0b0_11_00011000 = some .rdElapsed := by decide
theorem test_decode_wrElapsed : decodeTableWord 16 0b1_11_00011000 = some (.wrElapsed 0) := by decide
theorem test_decode_rdPins : decodeTableWord 16 0b0_11_00011100 = some .rdPins := by decide
theorem test_decode_wrPins : decodeTableWord 16 0b1_11_00011100 = some (.wrPins 0) := by decide
theorem test_decode_rdCh : decodeTableWord 16 0b0_11_01_1111_00 = some (.rdCh 15) := by decide
theorem test_decode_wrCh : decodeTableWord 16 0b1_11_01_0010_00 = some (.wrCh 2 0) := by decide
theorem test_decode_rdUnmappedLow :
    decodeTableWord 16 0b0_11_001_001_00 = some (.rdUnmappedLow 0x24) := by decide
theorem test_decode_wrUnmappedLow :
    decodeTableWord 16 0b1_11_001_111_00 = some (.wrUnmappedLow 0x3C 0) := by decide
theorem test_decode_rdUnmappedHigh :
    decodeTableWord 16 0b0_11_1_00000_00 = some (.rdUnmappedHigh 0x80) := by decide
theorem test_decode_wrUnmappedHigh :
    decodeTableWord 16 0b1_11_1_11111_00 = some (.wrUnmappedHigh 0xFC 0) := by decide

/-- L2.1's ILLEGAL words. -/
theorem test_decode_illegal_words :
    [0x00000001#32, 0x10000001#32, 0x1F000000#32, 0x200301B4#32, 0x2103005A#32].map decodeCommand =
      List.replicate 5 (.error .reservedField) := by decide

/-- V-B12 to V-B15's keys match no row. -/
theorem test_decode_illegal_keys :
    [0x104#11, 0x500#11, 0x405#11].map (decodeKey · 0) = List.replicate 3 (.error .notWordWide) ∧
    decodeKey 0x707#11 0 = .error .misaligned := by decide

/-! ## Pulse widths (L1.3, V-C17 to V-C20) -/

theorem test_pulse_rounds_down_map : [1, 89, 179].map (pulseTicks cfgT true) = [554, 1461, 2389] := by
  decide

theorem test_pulse_rounds_down_ticks :
    [89, 179].map (pulseTicks ⟨specParams 3 2 1000, by decide⟩ true) = [2191, 3583] := by decide

/-! ## Commands (L2.2) -/

/-- V-C1. -/
theorem test_nop_changes_nothing : { cmd rst 0x00000000 with response := none } = rst := by decide

/-- V-C2: INIT keeps the direction. -/
theorem test_init_keeps_direction :
    let s := cmd (cmd rst 0x2000005A) 0x10000000
    s.channelWord 0 = 0xFFFF03E8 ∧ s.pinsWord = 0x00010000 := by decide

/-- V-C4. -/
theorem test_setAngle_arms :
    let s := cmd rst 0x2003005A
    s.channelWord 3 = 0x05C003E8 ∧ s.pinsWord = 0x00080000 ∧ s.statusWord = 0 := by decide

/-- V-C5, V-C7: clamped, and extrapolated with CLAMP = 0. -/
theorem test_setAngle_clamp :
    (cmd rst 0x200700C8).channelWord 7 = 0x096003E8 ∧
    (cmd { rst with clamp := false } 0x200700FF).channelWord 7 = 0x0C6503E8 := by decide

/-- V-C12, V-C13: 0xFFFE is a width, 0xFFFF an error. -/
theorem test_setPeriod_sentinel :
    (cmd rst 0x3005FFFE).channelWord 5 = 0xFFFE03E8 ∧
    (cmd rst 0x3005FFFF).statusWord = 8 ∧ (cmd rst 0x3005FFFF).errcmd = 0x3005FFFF := by decide

/-- V-C14: CHANNEL comes before PERIOD. -/
theorem test_setPeriod_channel_first :
    (cmd rst 0x3010FFFF).statusWord = 4 ∧ (cmd rst 0x3010FFFF).errcmd = 0x3010FFFF := by decide

/-- V-C15, V-C17: ILLEGAL first; a pulse too wide for 16 bits is rejected. -/
theorem test_wrCmd_errors :
    (cmd rst 0x2110005A).statusWord = 2 ∧
    (cmd (State.resetWith rate28) 0x200000B4).statusWord = 8 ∧
    (cmd (State.resetWith rate28) 0x200000B4).channelWord 0 = 0xFFFF6D60 := by decide

/-! ## Bus accesses (L2.3) -/

/-- Reads after reset, L2.3, from CMD to PINS. -/
theorem test_reset_reads :
    [0x00, 0x04, 0x08, 0x0C, 0x10, 0x14, 0x18, 0x1C, 0x20, 0x40, 0x7C, 0x80, 0xFC].map rst.windowWord =
      [0, 4, 0, 0, 0, 0xFA, 0xFA, 0, 0, 0xFFFF03E8, 0xFFFF03E8, 0, 0] := by decide

/-- Rule R81's example, in CFG-R. -/
theorem test_rdCh_reference : State.reset.windowWord 0x40 = 0xFFFF9C40 ∧
    State.reset.windowByte 0x41 = 0x9C := by decide

/-- V-B1. -/
theorem test_wrCtrl_reserved_bits :
    (nextOf rst (exec (.wrCtrl 0xFFFFFFFF) rst)).ctrlWord = 7 := by decide

/-- V-B5: every error cleared, DIAG kept. -/
theorem test_wrStatus_keeps_diag :
    (nextOf rst (exec (.wrStatus 0x3F)
      { rst with diag := true, errIllegal := true, pending := true })).statusWord = 0x20 := by decide

/-- V-B7. -/
theorem test_wrCompare_low_half :
    (nextOf rst (exec (.wrCompare 0x123401FA) rst)).compare = 0x01FA := by decide

/-- V-B8, V-B9: the read-only registers ignore writes. -/
theorem test_wrCounter_ignored :
    (nextOf rst (exec (.wrCounter 0) { rst with counter := 0x10 })).counter = 0x10 := by decide

/-- V-B11: error response, data 0, ERR_BUS. -/
theorem test_misaligned_read :
    (nextOf rst (performAccess (.read 0x06 4) rst)).response = some (.read true 0) ∧
    (nextOf rst (performAccess (.read 0x06 4) rst)).statusWord = 0x10 := by decide

/-- V-B13: a narrow CMD write executes nothing. -/
theorem test_narrow_cmd_write :
    nextOf rst (performAccess (.write 0x00 2 0x5A) rst) =
      { rst with errBus := true, response := some (.write true) } := by decide

/-! ## TICK (L2.4) -/

/-- V-T1, V-T2: a match, and one across the wrap. -/
theorem test_tick_match :
    ({ rst with counter := 0x00F9 } : State).tick.pending = true ∧
    ({ rst with counter := 0xFFFF, compare := 0 } : State).tick.pending = true := by decide

/-- V-T3: equality that was not stepped into is no match. -/
theorem test_tick_equal_before :
    ({ rst with counter := 0x0010, compare := 0x0010 } : State).tick.pending = false := by decide

/-- V-T5, V-T6: `pend_age` counts only with EN = 1. -/
theorem test_tick_age :
    ({ rst with en := true, pending := true } : State).tick.pendAge = 1 ∧
    ({ rst with pending := true } : State).tick.pendAge = 0 := by decide

/-! ## DISPATCH (L2.5) -/

/-- What a vector of L2.5 shows of channel 0 and the shared registers. -/
def shown (s : State) : Ticks × Bool × Ticks × Ticks :=
  ((s.channel 0).countdown, (s.channel 0).level, s.elapsed, s.compare)

/-- V-D1. -/
theorem test_dispatch_idle : shown (dueWith off off 250 0x00FA).dispatch = (1000, false, 250, 0x01F4) := by
  decide

/-- V-D4, V-D5: both edges. -/
theorem test_dispatch_edges :
    shown (dueWith (armed 150 300 false) off 150 0x03E8).dispatch = (300, true, 200, 0x04B0) ∧
    shown (dueWith (armed 100 300 true) off 100 0x0514).dispatch = (1000, false, 200, 0x05DC) := by
  decide

/-- V-D6, V-D8: the near miss and its limit. -/
theorem test_dispatch_near_miss :
    shown (dueWith (armed 150 1 false) off 150 0x03E8).dispatch = (1, true, 1, 0x03EB) ∧
    shown (dueWith (armed 100 2 false) off 100 0x0100).dispatch = (2, true, 2, 0x0102) := by decide

/-- V-D6, V-D8: the diagnostic. -/
theorem test_dispatch_diag :
    ({ dueWith (armed 150 1 false) off 150 0x03E8 with diagEn := true } : State).dispatch.diag = true ∧
    ({ dueWith (armed 100 2 false) off 100 0x0100 with diagEn := true } : State).dispatch.diag = false := by
  decide

/-- V-D9, V-D10: the coalescing window's edge. -/
theorem test_dispatch_window_edge :
    shown (dueWith (armed 400 300 false) off 200 0x0100).dispatch = (200, false, 200, 0x01C8) ∧
    shown (dueWith (armed 399 300 false) off 200 0x0100).dispatch = (199, false, 199, 0x01C7) := by decide

/-- V-D11, V-D12: the toggle threshold's edge. -/
theorem test_dispatch_threshold_edge :
    shown (dueWith (armed 205 300 false) off 200 0x0100).dispatch = (5, false, 5, 0x0105) ∧
    shown (dueWith (armed 204 300 false) off 200 0x0100).dispatch = (300, true, 200, 0x01C8) := by decide

/-- V-D13: two toggles, the minimum over reloaded values. -/
theorem test_dispatch_two_toggles :
    let s := (dueWith (armed 150 100 false) (armed 150 40 false) 150 0x03E8).dispatch
    s.pinsWord = 0x00030003 ∧ s.elapsed = 40 ∧ s.compare = 0x0410 := by decide

/-- V-D15: a countdown wraps where the premise of rule R160 fails. -/
theorem test_dispatch_wraps :
    shown ({ dueWith (armed 100 100 false) off 250 0x00FA with params := short } : State).dispatch =
      (0xFF6A, false, 200, 0x01C2) := by decide

/-! ## Arbitration and reset (L2.6) -/

/-- V-L1: a read that arrives while a dispatch is due sees PENDING = 0. -/
theorem test_read_held_for_dispatch :
    let s : State := { rst with en := true, counter := 0xF9, events := [.tick false, .access (.read 8 4)] }
    let t := nextOf s (Host.Core.run Sys2Proof.core 3 s)
    t.response = some (.read false 0) ∧ t.compare = 0x01F4 := by decide

/-- S12: with the tick input stopped and nothing asked for, no step is enabled. -/
theorem test_stuck_without_ticks : Machine.step { rst with ticking := false } =
    .fault .noStepEnabled := rfl

/-- S12: with the tick input stopped, a due DISPATCH does not occur and an access it holds waits. The input
returns with a reset (rule R214). -/
theorem test_stopped_dispatch_is_stuck :
    let s : State := { dueWith (armed 150 1 false) off 150 0x03E8 with events := [.tickStops true] }
    let t := s.takeEvent.stopTicks
    Machine.step s = .next t ∧ Machine.step t = .fault .noStepEnabled ∧
    Machine.step { t with events := [.access (.read 0x08 4)] } = .fault .noStepEnabled ∧
    (t.applyReset).nextTurn = .tick := ⟨rfl, rfl, rfl, rfl⟩

/-- The DISPATCH may commit just before the input stops (assumption 21). -/
theorem test_dispatch_before_stop :
    let s : State := { dueWith (armed 150 1 false) off 150 0x03E8 with events := [.tickStops false] }
    Machine.step s = .next s.dispatch ∧ s.dispatch.nextTurn = .tickStops := ⟨rfl, rfl⟩

/-- S12: with the tick input stopped, host accesses still step while no DISPATCH is due, and no TICK does. -/
theorem test_stopped_host_goes_on :
    ({ rst with ticking := false, events := [.access (.read 0x08 4)] } : State).nextTurn =
      .access (.read 0x08 4) ∧
    ({ rst with ticking := false, events := [.tick true] } : State).nextTurn = .stuck := ⟨rfl, rfl⟩

/-- Rule R230: reset forgets everything but what is asked for next. -/
theorem test_reset_event :
    let s : State := { cmd rst 0x2003005A with events := [.reset true, .tick false] }
    nextOf s (Machine.step s) = { rst with events := [.tick false] } := by decide

/-- The spec gives a due DISPATCH and a reset no order: the flag lets the DISPATCH go first (assumption 8). -/
theorem test_reset_after_dispatch :
    let s : State := { dueWith (armed 150 1 false) off 150 0x03E8 with events := [.reset false] }
    Machine.step s = .next s.dispatch ∧ s.dispatch.nextTurn = .reset := ⟨rfl, rfl⟩

/-- CFG-T with eight channels: channel 8 is missing (rule R102) and its place is unmapped (assumption 3). -/
theorem test_fewer_channels :
    let s := State.resetWith eight
    (cmd s 0x30080001).errChannel = true ∧ ((cmd s 0x30070001).channel 7).period = 1 ∧
    s.windowWord 0x60 = 0 ∧ s.windowWord 0x5C = 0xFFFF03E8 := by decide

/-- An opcode-table word presented to the machine after reset is run by its very next step (L1.2). -/
theorem test_withFetchWord_runs :
    let s := State.reset.withFetchWord 32 0x2003005A
    (nextOf s (Machine.step s)).channelWord 3 = 0x0B809C40 := by decide

/-! ## Witnesses: for every statement with hypotheses, states and operands that meet them all

Each is named after its statement; where a statement has several clauses, each has a witness at a
boundary of its range. -/

/-- The next transaction is one reset, tick or access. -/
def asked (s : State) (e : Event) : State := { s with events := [e] }

/-- A state on schedule with a DISPATCH due, one tick after its match, that toggles channel 0. -/
def late : State :=
  { dueWith (armed 150 1 false) off 150 0x03E8 with counter := 0x03E9, pendAge := 1, diagEn := true }

/-- A state that a CMD write of `w` comes next to. -/
def writing (w : Word) : State := asked rst (.access (.write 0x00 4 w))

theorem witness_ResetEventRestoresResetValues :
    ((asked late (.reset true)).events = .reset true :: [] ∧
      (true = true ∨ late.en = false ∨ late.pending = false ∨ late.ticking = false)) ∧
    ((asked late (.reset false)).events = .reset false :: [] ∧ late.en = true ∧ late.pending = true ∧
      late.ticking = true) ∧
    ((asked rst (.reset false)).events = .reset false :: [] ∧
      (false = true ∨ rst.en = false ∨ rst.pending = false ∨ rst.ticking = false)) := by decide

theorem witness_FirstMatchAfterHeartbeatTicks :
    0 ≤ cfgT.set.heartbeatStep ∧ 249 ≤ cfgT.set.heartbeatStep ∧ 250 ≤ cfgT.set.heartbeatStep := by decide

theorem witness_NoStepChangesParameters : Machine.step late = .next late.dispatch := rfl

theorem witness_ChannelReadsPeriodAndCountdown :
    (15 : ChannelIx).val < cfgT.set.nCh ∧ (7 : ChannelIx).val < eight.set.nCh := by decide

theorem witness_UnmappedReadsZeroIgnoresWrites :
    (0x20 % 4 = 0 ∧ 0x20 ≤ 0x20 ∧ 0x20 ≤ 0x3C) ∧ (0x3C % 4 = 0 ∧ 0x20 ≤ 0x3C ∧ 0x3C ≤ 0x3C) ∧
    (0x80 % 4 = 0 ∧ 0x80 ≤ 0x80 ∧ 0x80 ≤ 0xFC) ∧ (0xFC % 4 = 0 ∧ 0x80 ≤ 0xFC ∧ 0xFC ≤ 0xFC) := by decide

theorem witness_LegalReadShowsRegisterMap :
    (0x00 % 4 = 0 ∧ 0x00 ≤ 0xFC) ∧ (0x3C % 4 = 0 ∧ 0x3C ≤ 0xFC) ∧ (0x7C % 4 = 0 ∧ 0x7C ≤ 0xFC) ∧
    (0xFC % 4 = 0 ∧ 0xFC ≤ 0xFC) ∧
    eight.set.nCh ≤ (8 : ChannelIx).val ∧ eight.set.nCh ≤ (15 : ChannelIx).val := by decide

/-- One access for each of the three ways to be illegal: the width, the alignment, the range. -/
theorem witness_IllegalAccessRaisesBusError :
    ((3 ≠ 4 ∨ 0x04 % 4 ≠ 0 ∨ 0xFC < 0x04) ∧ (5 ≠ 4 ∨ 0x04 % 4 ≠ 0 ∨ 0xFC < 0x04)) ∧
    (4 ≠ 4 ∨ 0x05 % 4 ≠ 0 ∨ 0xFC < 0x05) ∧ (4 ≠ 4 ∨ 0x100 % 4 ≠ 0 ∨ 0xFC < 0x100) := by decide

theorem witness_DecodeOfEncodeIsIdentity :
    (Instr.setAngle 255 255).wellFormed = true ∧ (Instr.wrCh 15 0xFFFFFFFF).wellFormed = true ∧
    (Instr.rdUnmappedLow 0x20).wellFormed = true ∧ (Instr.wrUnmappedLow 0x3C 1).wellFormed = true ∧
    (Instr.rdUnmappedHigh 0x80).wellFormed = true ∧ (Instr.wrUnmappedHigh 0xFC 1).wellFormed = true := by
  decide

theorem witness_EncodeOfDecodeIsIdentity :
    decodeBytes [0x7C, 0x07, 1, 2, 3, 4] = .ok (.wrCh 15 0x04030201) ∧
    decodeBytes [0x5A, 0x00, 0x03, 0x20] = .ok (.setAngle 3 90) ∧
    decodeBytes [0x3C, 0x03] = .ok (.rdUnmappedLow 0x3C) := by decide

theorem witness_CmdWritePerformsItsCommand :
    decodeCommand 0x00000000 = .ok .nop ∧ decodeCommand 0x10000000 = .ok .init ∧
    decodeCommand 0x20FF00FF = .ok (.setAngle 255 255) ∧
    decodeCommand 0x3000FFFF = .ok (.setPeriod 0 0xFFFF) ∧
    decodeCommand 0x30FF0000 = .ok (.setPeriod 255 0) ∧
    decodeCommand 0x40000000 = .error (.reservedOp 4) := by decide

theorem witness_IllegalWordIsRejected :
    decodeCommand 0x00000001 = .error .reservedField ∧
    decodeCommand 0xFFFFFFFF = .error (.reservedOp 0xF) := by decide

/-- One word for each way to be reserved. -/
theorem witness_ReservedEncodingsAreIllegal :
    0x4 ≤ (0x40000000#32).toNat / 0x10000000 ∧
    ((0x10000001#32).toNat / 0x10000000 ≤ 0x1 ∧ (0x10000001#32).toNat % 0x10000000 ≠ 0) ∧
    ((0x21000000#32).toNat / 0x10000000 = 0x2 ∧
      (0x21000000#32).toNat / 0x1000000 % 0x10 ≠ 0) ∧
    ((0x20000100#32).toNat / 0x10000000 = 0x2 ∧ (0x20000100#32).toNat / 0x100 % 0x100 ≠ 0) ∧
    ((0x31000000#32).toNat / 0x10000000 = 0x3 ∧
      (0x31000000#32).toNat / 0x1000000 % 0x10 ≠ 0) := by decide

theorem witness_MissingChannelIsRejected :
    rst.params.set.nCh ≤ (16#8).toNat ∧ rst.params.set.nCh ≤ (255#8).toNat ∧
    eight.set.nCh ≤ (8#8).toNat := by decide

/-- The first channel, the last and the first missing one, one width that is stored and one that is not
(V-C17). -/
theorem witness_SetAngleStoresPulseWidth :
    rst.params.set.nCh ≤ (16#8).toNat ∧ (15#8).toNat < rst.params.set.nCh ∧
    (15#8).toNat < rate28.set.nCh ∧
    ((0#8).toNat = (0 : ChannelIx).val ∧ (15#8).toNat = (15 : ChannelIx).val) ∧
    (544 + min (180#8).toNat 180 * (2400 - 544) / 180) * 1 / 1 < 0xFFFF ∧
    0xFFFF ≤ (544 + min (180#8).toNat 180 * (2400 - 544) / 180) * 28 / 1 ∧
    rst.params.set.tickNum = 1 ∧ (State.resetWith rate28).params.set.tickNum = 28 := by decide

theorem witness_ClampHoldsPulseAtMaximum :
    (15#8).toNat = (15 : ChannelIx).val ∧ (15 : ChannelIx).val < rst.params.set.nCh ∧ rst.clamp = true ∧
    rst.params.set.angleSpan ≤ (180#8).toNat ∧ rst.params.set.angleSpan ≤ (255#8).toNat ∧
    rst.params.set.maxPulseUs * rst.params.set.tickNum / rst.params.set.tickDen < 0xFFFF := by decide

theorem witness_SetAngleIsIdempotentInPeriod :
    (3#8).toNat = (3 : ChannelIx).val ∧ (3 : ChannelIx).val < rst.params.set.nCh ∧
    exec (.setAngle 3 90) rst = .next (cmd rst 0x2003005A) ∧
    pulseTicks rst.params rst.clamp 90 < 0xFFFF ∧ late.params = rst.params ∧ late.clamp = rst.clamp ∧
    exec (.setAngle 3 90) late = .next (cmd late 0x2003005A) :=
  ⟨rfl, by decide, rfl, by decide, rfl, rfl, rfl⟩

theorem witness_SetPeriodStoresRawTicks :
    rst.params.set.nCh ≤ (16#8).toNat ∧ (15#8).toNat < rst.params.set.nCh ∧
    (15#8).toNat < rate28.set.nCh ∧
    (0#8).toNat = (0 : ChannelIx).val ∧ (15#8).toNat = (15 : ChannelIx).val ∧
    (0xFFFF#16 = 0xFFFF#16 ∧ 0xFFFE#16 ≠ 0xFFFF#16 ∧ 0#16 ≠ 0xFFFF#16) := by decide

theorem witness_TickCountsAndMatches :
    rst.nextTurn = .tick ∧ (asked { late with pendAge := 0 } (.tick true)).nextTurn = .tick := by decide

/-- A tick into equality, one that is not, one while a match is pending, and the two ways a step clears it. -/
theorem witness_MatchFiresOnlyOnTickIntoEquality :
    let s : State := { rst with counter := 0xF9 }
    let u : State := { rst with pending := true }
    let v := asked u (.access (.write 0x08 4 1))
    (Machine.step late = .next late.dispatch ∧ late.pending = true ∧ late.dispatch.pending = false) ∧
    (Machine.step v = .next (v.takeEvent.clearStatus 1).answerWrite ∧ v.pending = true ∧
      (v.takeEvent.clearStatus 1).answerWrite.pending = false) ∧
    Machine.step u = .next u.takeEvent.tick ∧ u.pending = true ∧ u.nextTurn = .tick ∧
    Machine.step s = .next s.takeEvent.tick ∧ s.pending = false ∧ s.nextTurn = .tick ∧
    s.takeEvent.tick.counter = s.compare ∧
    Machine.step rst = .next rst.takeEvent.tick ∧ rst.pending = false :=
  ⟨⟨rfl, rfl, rfl⟩, ⟨rfl, rfl, rfl⟩, rfl, rfl, rfl, rfl, rfl, rfl, rfl, rfl, rfl⟩

theorem witness_DueDispatchHoldsHostAccess :
    let s := asked late (.access (.read 0x08 4))
    late.nextTurn = .dispatch ∧
    s.en = true ∧ s.pending = true ∧ s.events = .access (.read 0x08 4) :: [] ∧ s.ticking = true ∧
    ({ s with ticking := false } : State).ticking = false := ⟨rfl, rfl, rfl, rfl, rfl, rfl⟩

/-- Below the bound and to overtake, below it and not to, and at the bound. -/
theorem witness_LatencyBoundStopsTheCounter :
    (late.en = true ∧ late.pending = true ∧ late.ticking = true ∧ (asked late (.tick true)).events = .tick true :: []) ∧
    (true = true ∧ ({ late with pendAge := 0 } : State).pendAge < late.params.set.dispatchLatencyMax) ∧
    false = false ∧ late.params.set.dispatchLatencyMax ≤ late.pendAge := by decide

theorem witness_StepRunsDecodedAccess :
    let s := writing 0x2003005A
    s.events = .access (.write 0x00 4 0x2003005A) :: [] ∧ (s.en = false ∨ s.pending = false) ∧
    decodeAccess (.write 0x00 4 0x2003005A) = .ok (.wrCmd 0x2003005A) := by decide

theorem witness_StepRunsPresentedTableWord :
    decodeTableWord 32 0x2003005A = some (.setAngle 3 90) ∧
    decodeTableWord 16 0x37C = some (.rdCh 15) ∧ decodeTableWord 16 0x700 = some (.wrCmd 0) := by decide

/-- An inactive channel, one just under the toggle threshold and one just at it. -/
theorem witness_DispatchDrainsAndToggles :
    let s := dueWith (armed 204 300 false) (armed 205 300 false) 200 0x0100
    s.nextTurn = .dispatch ∧ (s.channel 2).period = 0xFFFF ∧ (s.channel 0).period ≠ 0xFFFF ∧
    ((s.channel 0).countdown - s.elapsed).toNat < s.params.set.toggleThreshold ∧
    (s.channel 1).period ≠ 0xFFFF ∧
    s.params.set.toggleThreshold ≤ ((s.channel 1).countdown - s.elapsed).toNat := by decide

/-- The two sides of the coalescing window and of the near-miss limit. -/
theorem witness_DispatchReprogramsFromLeastCountdown :
    let s0 := dueWith (armed 400 300 false) off 200 0x0100
    let s1 := dueWith (armed 399 300 false) off 200 0x0100
    let s2 := dueWith (armed 100 2 false) off 100 0x0100
    (s0.nextTurn = .dispatch ∧ IsLeastActive s0.dispatch 200 ∧ s0.params.set.coalesceWindow ≤ 200) ∧
    (s1.nextTurn = .dispatch ∧ IsLeastActive s1.dispatch 199 ∧ 199 < s1.params.set.coalesceWindow) ∧
    (s2.nextTurn = .dispatch ∧ IsLeastActive s2.dispatch 2 ∧ ¬ 2 < s2.params.set.nearMissEps) ∧
    (late.nextTurn = .dispatch ∧ IsLeastActive late.dispatch 1 ∧ 1 < late.params.set.nearMissEps) := by
  unfold IsLeastActive
  decide

theorem witness_DiagnosticTogglesOnNearMiss :
    late.nextTurn = .dispatch ∧ IsLeastActive late.dispatch 1 ∧ late.diagEn = true ∧
    late.params.set.diagPresent = true := by
  unfold IsLeastActive
  decide

theorem witness_IdleDispatchAdvancesByHeartbeat :
    let s := dueWith off off 250 0x00FA
    s.nextTurn = .dispatch ∧ ∀ i : ChannelIx, (s.channel i).period = 0xFFFF#16 := by decide

/-- The first two channels changed over. -/
theorem witness_ChannelOrderIsUnobservable :
    let s := dueWith (armed 204 300 false) (armed 205 300 true) 200 0x0100
    let u := dueWith (armed 205 300 true) (armed 204 300 false) 200 0x0100
    s.nextTurn = .dispatch ∧ Machine.step s = .next s.dispatch ∧
    ∀ i : ChannelIx, u.chans[i] = s.channel (Equiv.swap 0 1 i) := by
  refine ⟨rfl, rfl, ?_⟩
  decide

theorem witness_CompareAdvanceHasLowerBound :
    late.params.set.nearMissEps ≤ 0x8000 ∧ late.nextTurn = .dispatch ∧
    Machine.step late = .next late.dispatch := ⟨by decide, rfl, rfl⟩

theorem witness_ElapsedIsTheAdvanceButForNearMiss :
    late.nextTurn = .dispatch ∧ Machine.step late = .next late.dispatch := ⟨rfl, rfl⟩

theorem witness_OnlyTickAndResetWriteCounter :
    Machine.step rst = .next rst.takeEvent.tick ∧
    Machine.step (asked late (.reset true)) =
      .next (asked late (.reset true)).takeEvent.applyReset := ⟨rfl, rfl⟩

/-- A countdown that a DISPATCH changes and one that INIT does, and a period that SET_PERIOD changes. -/
theorem witness_WritersOfCountdownAndPeriod :
    let s := asked { late with pending := false } (.access (.write 0x00 4 0x10000000))
    let u := writing 0x3001012C
    (Machine.step late = .next late.dispatch ∧
      (late.dispatch.channel 0).countdown ≠ (late.channel 0).countdown) ∧
    (Machine.step s = .next (cmd s.takeEvent 0x10000000) ∧
      ((cmd s.takeEvent 0x10000000).channel 0).countdown ≠ (s.channel 0).countdown) ∧
    (Machine.step u = .next (cmd u.takeEvent 0x3001012C) ∧
      ((cmd u.takeEvent 0x3001012C).channel 1).period ≠ (u.channel 1).period) :=
  ⟨⟨rfl, by decide⟩, ⟨rfl, by decide⟩, rfl, by decide⟩

theorem witness_LevelChangesOnlyOnActiveInDispatch :
    Machine.step late = .next late.dispatch ∧
    (late.dispatch.channel 0).level ≠ (late.channel 0).level := ⟨rfl, by decide⟩

/-- A driven output that stays driven, and one that SET_PERIOD, and SET_ANGLE, makes driven. -/
theorem witness_OutputsAreDrivenFromFirstSet :
    let u := writing 0x3001012C
    let v := writing 0x200F005A
    (WritesCommand u 0x3001012C ∧ (1#8).toNat = (1 : ChannelIx).val ∧
      (1 : ChannelIx).val < u.params.set.nCh ∧
      decodeCommand 0x3001012C = .ok (.setPeriod 1 300) ∧ (300 : Ticks) ≠ 0xFFFF#16) ∧
    (WritesCommand v 0x200F005A ∧ (15#8).toNat = (15 : ChannelIx).val ∧
      (15 : ChannelIx).val < v.params.set.nCh ∧
      Machine.step v = .next (cmd v.takeEvent 0x200F005A) ∧
      decodeCommand 0x200F005A = .ok (.setAngle 15 90) ∧ pulseTicks v.params v.clamp 90 < 0xFFFF) ∧
    (Machine.step late = .next late.dispatch ∧ late.servoOut 0 ≠ .undriven ∧
      late.nextTurn ≠ .reset) ∧
    (Machine.step u = .next (cmd u.takeEvent 0x3001012C) ∧ u.servoOut 1 = .undriven ∧
      (cmd u.takeEvent 0x3001012C).servoOut 1 ≠ .undriven) :=
  ⟨⟨rfl, rfl, by decide, by decide, by decide⟩, ⟨rfl, rfl, by decide, rfl, by decide, by decide⟩,
    ⟨rfl, by decide, by decide⟩, rfl, by decide, by decide⟩

theorem witness_WritersOfCompareAndElapsed :
    let s := asked rst (.access (.write 0x14 4 0x123401FA))
    (Machine.step late = .next late.dispatch ∧ late.dispatch.compare ≠ late.compare ∧
      late.dispatch.elapsed ≠ late.elapsed) ∧
    (Machine.step s = .next (s.takeEvent.setCompare 0x123401FA).answerWrite ∧
      (s.takeEvent.setCompare 0x123401FA).answerWrite.compare ≠ s.compare) :=
  ⟨⟨rfl, by decide, by decide⟩, rfl, by decide⟩

theorem witness_ErrorBitsAreSticky :
    let s : State := { asked rst (.access (.write 0x08 4 0x1E)) with
      errIllegal := true, errChannel := true, errPeriod := true, errBus := true }
    let t := (s.takeEvent.clearStatus 0x1E).answerWrite
    Machine.step s = .next t ∧ s.nextTurn ≠ .reset ∧
    (t.errIllegal = false ∧ t.errChannel = false ∧ t.errPeriod = false ∧ t.errBus = false) :=
  ⟨rfl, by decide, by decide⟩

theorem witness_DiagChangesOnlyWhenEnabled :
    Machine.step late = .next late.dispatch ∧ late.dispatch.diag ≠ late.diag := ⟨rfl, by decide⟩

theorem witness_StepKeepsCountdownsCoveringElapsed :
    RefreshCoversSteps late.params ∧ CountdownsCoverElapsed late ∧
    Machine.step late = .next late.dispatch := by
  refine ⟨?_, ?_, rfl⟩
  · unfold RefreshCoversSteps; decide
  · unfold CountdownsCoverElapsed; decide

theorem witness_ResetMeetsTheInvariants : RefreshCoversSteps cfgR ∧ RefreshCoversSteps cfgT := by
  unfold RefreshCoversSteps
  decide

/-- A tick may still overtake, and the bound is reached. -/
theorem witness_StepKeepsLatencyWithinBound :
    let s := asked { late with pendAge := 0 } (.tick true)
    LatencyWithinBound s ∧ Machine.step s = .next s.takeEvent.tick ∧
    LatencyWithinBound late ∧ Machine.step late = .next late.dispatch := by
  refine ⟨?_, rfl, ?_, rfl⟩ <;> unfold LatencyWithinBound <;> decide

/-- CFG-T without the diagnostic. -/
def noDiag : Params := ⟨{ specParams 1 1 1000 with diagPresent := false }, by decide⟩

theorem witness_StepKeepsAbsentDiagnosticLow :
    let s : State := { late with params := noDiag }
    DiagnosticAbsentIsLow s ∧ s.params.set.diagPresent = false ∧ Machine.step s = .next s.dispatch := by
  refine ⟨?_, rfl, rfl⟩
  unfold DiagnosticAbsentIsLow
  decide

/-- Pending one tick late, and with no match pending. -/
theorem witness_StepKeepsMatchOnSchedule :
    let s : State := { rst with en := true, counter := 0xF9 }
    (LatencyBelowAdvances late.params ∧ MatchOnSchedule late ∧ Machine.step late = .next late.dispatch ∧
      late.dispatch.en = true ∧ WritesNoCompare late) ∧
    (MatchOnSchedule s ∧ Machine.step s = .next s.takeEvent.tick ∧ s.takeEvent.tick.en = true ∧
      WritesNoCompare s) := by
  refine ⟨⟨?_, ?_, rfl, rfl, ?_⟩, ?_, rfl, rfl, ?_⟩
  · unfold LatencyBelowAdvances; decide
  · unfold MatchOnSchedule; decide
  · intro a v h; cases h
  · unfold MatchOnSchedule; decide
  · intro a v h; cases h

theorem witness_DispatchSeatsCompareAhead :
    LatencyBelowAdvances late.params ∧ MatchOnSchedule late ∧ late.nextTurn = .dispatch ∧
    Machine.step late = .next late.dispatch := by
  refine ⟨?_, ?_, rfl, rfl⟩
  · unfold LatencyBelowAdvances; decide
  · unfold MatchOnSchedule; decide

/-- The first tick at which EN may be written after reset, and the last. -/
theorem witness_EnablingInTimeStartsOnSchedule :
    let s : State := { rst with counter := 249 }
    (rst.pending = false ∧ 0 < (rst.compare - rst.counter).toNat ∧
      (rst.compare - rst.counter).toNat ≤ rst.elapsed.toNat ∧ (5 : Word).getLsbD 0 = true ∧
      exec (.wrCtrl 5) rst = .next (rst.setCtrl 5).answerWrite) ∧
    (s.pending = false ∧ 0 < (s.compare - s.counter).toNat ∧
      (s.compare - s.counter).toNat ≤ s.elapsed.toNat ∧
      exec (.wrCtrl 5) s = .next (s.setCtrl 5).answerWrite) :=
  ⟨⟨rfl, by decide, by decide, rfl, rfl⟩, rfl, by decide, by decide, rfl⟩

/-- The late enable of rule R236 with its match dropped is not on schedule. -/
theorem test_late_enable_is_off_schedule :
    ¬ MatchOnSchedule { rst with en := true, counter := 600 } := by
  unfold MatchOnSchedule
  decide

theorem witness_WritersOfControlAndErrcmd :
    let s := asked rst (.access (.write 0x04 4 3))
    let u := writing 0x40000000
    (Machine.step s = .next (s.takeEvent.setCtrl 3).answerWrite ∧ s.nextTurn ≠ .reset ∧
      (s.takeEvent.setCtrl 3).answerWrite.en ≠ s.en) ∧
    (Machine.step u = .next (cmd u.takeEvent 0x40000000) ∧ u.nextTurn ≠ .reset ∧
      (cmd u.takeEvent 0x40000000).errcmd ≠ u.errcmd) :=
  ⟨⟨rfl, by decide, by decide⟩, rfl, by decide, by decide⟩

end Sys2Proof.Tests
end

section
/-! PROOF. The reset values (rule R39). -/

namespace Sys2Proof.Machine

/-- A channel after reset, with REFRESH_TICKS by rule R185's arithmetic and the inactive sentinel as a
literal (rules R22, R39). -/
theorem Channel.atReset_eq (p : Params) :
    Channel.atReset p =
      { countdown := BitVec.ofNat 16 (p.set.refreshUs * p.set.tickNum / p.set.tickDen)
        period := 0xFFFF#16, level := false, dir := false } := rfl

/-- Settles O1: the channel table place by place, and each shared register by its entry of
`State.resetWith`. -/
theorem resetValuesOfEveryRegister : Obligations.ResetValuesOfEveryRegister := by
  intro p
  have hchannel (i : ChannelIx) := (channel_resetWith p i).trans (Channel.atReset_eq p)
  exact ⟨hchannel, rfl, rfl, rfl, rfl, rfl, rfl, rfl, rfl, rfl, rfl, rfl, rfl, rfl, rfl⟩

end Sys2Proof.Machine
end

section
/-! PROOF. What a word access to the register window decodes to (rules R51, R53, R54, R95), and the operation it
then is. -/

namespace Sys2Proof

/-- The key of a four-byte access (rule R95). -/
def wordKey (wr : Bool) (off : Byte) : Key := BitVec.ofBool wr ++ 3#2 ++ off

theorem keyOf_word (wr : Bool) {off : Nat} (h : off ≤ 0xFF) :
    keyOf wr off 4 = some (wordKey wr (BitVec.ofNat 8 off)) :=
  if_pos ⟨by decide, by decide, h⟩

@[simp] theorem extractLsb'_wordKey (wr : Bool) (off : Byte) : (wordKey wr off).extractLsb' 0 8 = off :=
  BitVec.extractLsb'_append_eq_right

/-- A key is decoded by the first row it hits. -/
theorem decodeKey_of_findIdx {k : Key} {n : Nat} {r : BusRow} (hk : busRows.findIdx (BusRow.hits k) = n)
    (hr : busRows[n]? = some r) (v : Word) : decodeKey k v = .ok (r.op (k.extractLsb' 0 8) v) := by
  simp only [decodeKey, List.find?_eq_getElem?_findIdx, hk, hr]

/-- A word read decodes to the operation of the first row its key hits (rule R95). -/
theorem decodeAccess_read_of_row {off n : Nat} {r : BusRow} (h : off ≤ 0xFF)
    (hk : busRows.findIdx (BusRow.hits (wordKey false (BitVec.ofNat 8 off))) = n)
    (hr : busRows[n]? = some r) : decodeAccess (.read off 4) = .ok (r.op (BitVec.ofNat 8 off) 0) := by
  simp only [decodeAccess, keyOf_word false h, decodeKey_of_findIdx hk hr, extractLsb'_wordKey]

/-- A word write decodes to the operation of the first row its key hits (rule R95). -/
theorem decodeAccess_write_of_row {off n : Nat} {r : BusRow} (h : off ≤ 0xFF)
    (hk : busRows.findIdx (BusRow.hits (wordKey true (BitVec.ofNat 8 off))) = n)
    (hr : busRows[n]? = some r) (v : Word) :
    decodeAccess (.write off 4 v) = .ok (r.op (BitVec.ofNat 8 off) v) := by
  simp only [decodeAccess, keyOf_word true h, decodeKey_of_findIdx hk hr, extractLsb'_wordKey]

/-! ## The rows that cover a range of offsets -/

/-- A CH place is the row of RD_CH or of WR_CH, and its key names the channel (rules R51, R95). -/
theorem channel_row (wr : Bool) (i : ChannelIx) :
    busRows.findIdx (BusRow.hits (wordKey wr (BitVec.ofNat 8 (0x40 + 4 * i.val)))) = 16 + wr.toNat ∧
    channelOfOffset (BitVec.ofNat 8 (0x40 + 4 * i.val)) = i := by
  revert wr i
  decide

/-- The offsets of the lower unmapped range are the rows of that range (rules R51, R95). -/
theorem unmappedLow_row : ∀ (wr : Bool) (off : Byte), unmappedLow off = true →
    busRows.findIdx (BusRow.hits (wordKey wr off)) = 18 + wr.toNat := by
  decide

/-- The offsets of the upper unmapped range are the rows of that range (rules R51, R95). -/
theorem unmappedHigh_row : ∀ (wr : Bool) (off : Byte), unmappedHigh off = true →
    busRows.findIdx (BusRow.hits (wordKey wr off)) = 20 + wr.toNat := by
  decide

theorem channelOffset_le (i : ChannelIx) : 0x40 + 4 * i.val ≤ 0xFF := by
  have hi : i.val < 16 := i.isLt
  omega

theorem decodeAccess_read_channel (i : ChannelIx) :
    decodeAccess (.read (0x40 + 4 * i.val) 4) = .ok (.rdCh i) := by
  obtain ⟨hrow, hch⟩ := channel_row false i
  simpa only [hch] using decodeAccess_read_of_row (channelOffset_le i) hrow rfl

theorem decodeAccess_write_channel (i : ChannelIx) (v : Word) :
    decodeAccess (.write (0x40 + 4 * i.val) 4 v) = .ok (.wrCh i v) := by
  obtain ⟨hrow, hch⟩ := channel_row true i
  simpa only [hch] using decodeAccess_write_of_row (channelOffset_le i) hrow rfl v

/-! ## Illegal accesses -/

/-- Every row of the table fixes `NM1 = 3` and `OFF[1:0] = 0` (rule R95). -/
theorem busRows_fix_width_and_alignment :
    ∀ r ∈ busRows, r.mask &&& 0x303#11 = 0x303#11 ∧ r.pattern &&& 0x303#11 = 0x300#11 := by
  decide

/-- Rules R54, R95: a key that decodes has `NM1 = 3` and `OFF[1:0] = 0`. -/
theorem word_aligned_of_decodeKey {k : Key} {v : Word} {i : Instr} (h : decodeKey k v = .ok i) :
    k.extractLsb' 8 2 = 3#2 ∧ k.extractLsb' 0 2 = 0#2 := by
  obtain ⟨r, hr, hits, -⟩ := decodeKey_eq_ok h
  obtain ⟨hmask, hpattern⟩ := busRows_fix_width_and_alignment r hr
  have hfixed : k &&& 0x303#11 = 0x300#11 := by
    rw [← hmask, ← BitVec.and_assoc, eq_of_beq hits, hpattern]
  have hbits (start : Nat) (hstart : (0x303#11).extractLsb' start 2 = BitVec.allOnes 2) :
      k.extractLsb' start 2 = (0x300#11).extractLsb' start 2 := by
    rw [← hfixed, BitVec.extractLsb'_and, hstart, BitVec.and_allOnes]
  exact ⟨hbits 8 rfl, hbits 0 rfl⟩

/-- Rules R53, R54: an access whose key decodes is a word access at an aligned offset of the window. -/
theorem legal_of_decodeKey {wr : Bool} {off n : Nat} {k : Key} {v : Word} {i : Instr}
    (hk : keyOf wr off n = some k) (hi : decodeKey k v = .ok i) : n = 4 ∧ off % 4 = 0 ∧ off ≤ 0xFC := by
  obtain ⟨_, _, _, hkey⟩ := keyOf_toNat hk
  obtain ⟨hwidth, halign⟩ := word_aligned_of_decodeKey hi
  have hwidth := congrArg BitVec.toNat hwidth
  have halign := congrArg BitVec.toNat halign
  simp only [BitVec.extractLsb'_toNat, Nat.shiftRight_eq_div_pow, BitVec.toNat_ofNat] at hwidth halign
  omega

/-- Rules R53, R54: an access that decodes is a word access at an aligned offset of the window. -/
theorem legal_of_decodeAccess {a : BusAccess} {i : Instr} (h : decodeAccess a = .ok i) :
    ∃ off, (a = .read off 4 ∨ ∃ v, a = .write off 4 v) ∧ off % 4 = 0 ∧ off ≤ 0xFC := by
  obtain ⟨off, n, k, rfl, hk, hi⟩ | ⟨off, n, v, k, rfl, hk, hi⟩ := decodeAccess_eq_ok h
  · obtain ⟨rfl, hoff⟩ := legal_of_decodeKey hk hi
    exact ⟨off, .inl rfl, hoff⟩
  · obtain ⟨rfl, hoff⟩ := legal_of_decodeKey hk hi
    exact ⟨off, .inr ⟨v, rfl⟩, hoff⟩

end Sys2Proof

namespace Sys2Proof.Machine

/-- An access that decodes is, at its turn, the operation it decodes to. -/
theorem performAccess_of_ok {a : BusAccess} {i : Instr} (h : decodeAccess a = .ok i) (s : State) :
    performAccess a s = exec i s := by
  simp only [performAccess, h]

/-- An access that decodes to no operation is a bus error (rules R54, R203). -/
theorem performAccess_of_not_ok {a : BusAccess} (h : ∀ i, decodeAccess a ≠ .ok i) (s : State) :
    performAccess a s = .next (s.raiseBusError a) := by
  cases hd : decodeAccess a with
  | ok i => exact absurd hd (h i)
  | error r => simp only [performAccess, hd]

end Sys2Proof.Machine
end

section
/-! PROOF. Illegal accesses (rules R54, R203) and the CMD write (rules R69, R100). -/

namespace Sys2Proof.Machine

/-- Settles O15: an access that decodes is a word access at an aligned offset of the window, so an illegal one
decodes to nothing and is a bus error. -/
theorem illegalAccessRaisesBusError : Obligations.IllegalAccessRaisesBusError := by
  intro s off n v hillegal
  constructor
  · refine performAccess_of_not_ok (fun i hi => ?_) s
    obtain ⟨_, ha | ⟨_, ha⟩, hlegal⟩ := legal_of_decodeAccess hi <;> cases ha
    omega
  · refine performAccess_of_not_ok (fun i hi => ?_) s
    obtain ⟨_, ha | ⟨_, ha⟩, hlegal⟩ := legal_of_decodeAccess hi <;> cases ha
    omega

/-- Rules R91, R92: a word that decodes to a command is that command's own word, for the fields its format fixes
and its operands add up to it. -/
theorem encodeCommand_of_decodeCommand {w : Word} {c : Command} (h : decodeCommand w = .ok c) :
    encodeCommand c = w := by
  have hw := w.isLt
  simp only [decodeCommand, ← BitVec.toNat_inj, BitVec.extractLsb'_toNat,
    Nat.shiftRight_eq_div_pow, BitVec.ofNat_eq_ofNat, BitVec.toNat_ofNat] at h
  split_ifs at h with hop hzero hop hzero hop hzero hop hzero <;> cases h <;>
    apply BitVec.eq_of_toNat_eq
  · rw [encodeCommand, BitVec.toNat_ofNat]
    omega
  · rw [encodeCommand, BitVec.toNat_ofNat]
    omega
  · rw [encodeCommand, setAngleWord_toNat]
    simp only [BitVec.extractLsb'_toNat, Nat.shiftRight_eq_div_pow]
    omega
  · rw [encodeCommand, setPeriodWord_toNat]
    simp only [BitVec.extractLsb'_toNat, Nat.shiftRight_eq_div_pow]
    omega

/-- Rule R100: the operation of a command row is the CMD write of the word that decodes to it. -/
theorem exec_toInstr {w : Word} {c : Command} (h : decodeCommand w = .ok c) (s : State) :
    exec c.toInstr s = .next (s.executeCommand w).answerWrite := by
  have hw := encodeCommand_of_decodeCommand h
  simp only [State.executeCommand, h]
  subst hw
  cases c <;> rfl

/-- Rule R101: a word that decodes as ILLEGAL is rejected. -/
theorem executeCommand_of_error {w : Word} {r : DecodeReject} (h : decodeCommand w = .error r) (s : State) :
    s.executeCommand w = { s with errIllegal := true, errcmd := w } := by
  simp only [State.executeCommand, h, State.raiseCmdError]

theorem exec_wrCmd (w : Word) (s : State) : exec (.wrCmd w) s = .next (s.executeCommand w).answerWrite := rfl

/-- Settles O21: the CMD write and the command's own operation are both ExecuteCommand of the word, which for an
ILLEGAL word is the rejection. -/
theorem cmdWritePerformsItsCommand : Obligations.CmdWritePerformsItsCommand := by
  refine fun s w => ⟨performAccess_of_ok rfl s, fun c hc => ?_, fun r hr => ?_⟩
  · rw [exec_wrCmd, exec_toInstr hc]
  · rw [exec_wrCmd, executeCommand_of_error hr]
    rfl

end Sys2Proof.Machine
end

section
/-! PROOF. The register reads (rules R55, R73 to R81). -/

namespace Sys2Proof.Machine

/-- A bit appended below, as one more packed bit. -/
theorem toNat_append_ofBool {n : Nat} (x : BitVec n) (b : Bool) :
    (x ++ BitVec.ofBool b).toNat = b.toNat + 2 * x.toNat := by
  rw [BitVec.append_ofBool, BitVec.toNat_concat]
  omega

/-- CTRL as it reads, with its bits in the order rule R74 writes them. -/
theorem ctrlWord_eq (s : State) : s.ctrlWord =
    (BitVec.ofBool s.clamp ++ BitVec.ofBool s.diagEn ++ BitVec.ofBool s.en).setWidth 32 := by
  apply BitVec.eq_of_toNat_eq
  simp [State.ctrlWord, packBits, toNat_append_ofBool]

/-- STATUS as it reads, with its bits in the order rule R75 writes them. -/
theorem statusWord_eq (s : State) : s.statusWord =
    (BitVec.ofBool s.diag ++ BitVec.ofBool s.errBus ++ BitVec.ofBool s.errPeriod ++
      BitVec.ofBool s.errChannel ++ BitVec.ofBool s.errIllegal ++ BitVec.ofBool s.pending).setWidth 32 := by
  apply BitVec.eq_of_toNat_eq
  simp [State.statusWord, packBits, toNat_append_ofBool]

theorem exec_rdCtrl (s : State) : exec .rdCtrl s = .next (s.answerRead s.ctrlWord) := rfl

theorem exec_rdStatus (s : State) : exec .rdStatus s = .next (s.answerRead s.statusWord) := rfl

/-- Settles O5: each offset decodes to its read, and CTRL and STATUS read as their packed bits. -/
theorem registerReadsReturnRegisters : Obligations.RegisterReadsReturnRegisters := by
  intro s
  refine ⟨performAccess_of_ok rfl s, performAccess_of_ok rfl s, performAccess_of_ok rfl s,
    performAccess_of_ok rfl s, performAccess_of_ok rfl s, performAccess_of_ok rfl s,
    performAccess_of_ok rfl s, rfl, ?_, ?_, rfl, rfl, rfl, rfl⟩
  · rw [exec_rdCtrl, ctrlWord_eq]; rfl
  · rw [exec_rdStatus, statusWord_eq]; rfl

/-- Bit `i` of PINS is the level of channel `i` (rule R80). -/
theorem getLsbD_pinsWord_level (s : State) (i : ChannelIx) :
    s.pinsWord.getLsbD i.val = (s.channel i).level := by
  have hi : i.val < 16 := i.isLt
  have hlt : i.val < 32 := by omega
  rw [getLsbD_pinsWord]
  simp [State.channel, hlt, List.getElem?_append_left]

/-- Bit `16 + i` of PINS is the direction of channel `i` (rule R80). -/
theorem getLsbD_pinsWord_dir (s : State) (i : ChannelIx) :
    s.pinsWord.getLsbD (16 + i.val) = (s.channel i).dir := by
  have hi : i.val < 16 := i.isLt
  have hlt : 16 + i.val < 32 := by omega
  rw [getLsbD_pinsWord]
  simp [State.channel, hlt]

/-- Settles O6 with the word PINS reads as. -/
theorem pinsReadLevelsAndDirections : Obligations.PinsReadLevelsAndDirections := fun s =>
  ⟨performAccess_of_ok rfl s, s.pinsWord, rfl,
    fun i => ⟨getLsbD_pinsWord_level s i, getLsbD_pinsWord_dir s i⟩⟩

/-- A channel of the build reads as its period above its countdown (rule R81). -/
theorem channelWord_of_lt {s : State} {i : ChannelIx} (h : i.val < s.params.set.nCh) :
    s.channelWord i = (s.channel i).period ++ (s.channel i).countdown := if_pos h

theorem exec_rdCh (s : State) (i : ChannelIx) :
    exec (.rdCh i) s = .next (s.answerRead (s.channelWord i)) := rfl

/-- Settles O7: the place of CH[i] decodes to RD_CH of `i`, whose word is that of a channel of the build. -/
theorem channelReadsPeriodAndCountdown : Obligations.ChannelReadsPeriodAndCountdown := by
  refine fun s i => ⟨performAccess_of_ok (decodeAccess_read_channel i) s, fun hi => ?_⟩
  rw [exec_rdCh, channelWord_of_lt hi]
  rfl

/-- Settles O8: the operations answer without looking at their operands, and an aligned offset of either range
decodes to that range's operation. -/
theorem unmappedReadsZeroIgnoresWrites : Obligations.UnmappedReadsZeroIgnoresWrites := by
  refine fun s off v => ⟨rfl, rfl, rfl, rfl, fun o halign hrange => ?_⟩
  have ho : o ≤ 0xFF := by omega
  have hn : (BitVec.ofNat 8 o).toNat = o := Nat.mod_eq_of_lt (Nat.lt_succ_of_le ho)
  obtain ⟨hmin, hmax⟩ | ⟨hmin, hmax⟩ := hrange
  · have hlow : unmappedLow (BitVec.ofNat 8 o) = true := by simp [unmappedLow, hn, halign, hmin, hmax]
    exact ⟨performAccess_of_ok (decodeAccess_read_of_row ho (unmappedLow_row false _ hlow) rfl) s,
      performAccess_of_ok (decodeAccess_write_of_row ho (unmappedLow_row true _ hlow) rfl v) s⟩
  · have hhigh : unmappedHigh (BitVec.ofNat 8 o) = true := by simp [unmappedHigh, hn, halign, hmin, hmax]
    exact ⟨performAccess_of_ok (decodeAccess_read_of_row ho (unmappedHigh_row false _ hhigh) rfl) s,
      performAccess_of_ok (decodeAccess_write_of_row ho (unmappedHigh_row true _ hhigh) rfl v) s⟩

end Sys2Proof.Machine
end

section
/-! PROOF. The register writes other than CMD's (rules R66 to R68, R71). -/

namespace Sys2Proof.Machine

/-- A status bit after a write of 1 to clear: the mask of rule R66 as a choice. -/
theorem and_not_eq_ite (bit clear : Bool) : (bit && !clear) = if clear = true then false else bit := by
  cases clear <;> simp

theorem exec_wrStatus (s : State) (v : Word) :
    exec (.wrStatus v) s = .next (s.clearStatus v).answerWrite := rfl

/-- Settles O10: the offset of STATUS decodes to WR_STATUS, and each bit is cleared by its own bit of the data. -/
theorem statusWriteClearsOnesWritten : Obligations.StatusWriteClearsOnesWritten := by
  refine fun s v => ⟨performAccess_of_ok rfl s, ?_⟩
  simp only [exec_wrStatus, State.clearStatus, and_not_eq_ite]
  rfl

/-- Settles O11: the offset of COMPARE decodes to WR_COMPARE. -/
theorem compareWriteTakesLowHalf : Obligations.CompareWriteTakesLowHalf := fun s _ =>
  ⟨performAccess_of_ok rfl s, rfl⟩

/-- Settles O12: the offset of CTRL decodes to WR_CTRL. -/
theorem ctrlWriteSetsThreeBits : Obligations.CtrlWriteSetsThreeBits := fun s _ =>
  ⟨performAccess_of_ok rfl s, rfl⟩

/-- Settles O13: each read-only offset decodes to its write, and none of those writes looks at its data. -/
theorem readOnlyRegistersIgnoreWrites : Obligations.ReadOnlyRegistersIgnoreWrites := fun s v i =>
  ⟨performAccess_of_ok rfl s, performAccess_of_ok rfl s, performAccess_of_ok rfl s,
    performAccess_of_ok rfl s, performAccess_of_ok (decodeAccess_write_channel i v) s,
    rfl, rfl, rfl, rfl, rfl⟩

end Sys2Proof.Machine
end

section
/-! PROOF. Command words (rules R91, R92): each command's word decodes to it, and no other word does. -/

namespace Sys2Proof.Machine

/-- A field of a word, from the word as a number. -/
theorem extractLsb'_eq_of_toNat {w : Word} {start len : Nat} {x : BitVec len}
    (h : w.toNat / 2 ^ start % 2 ^ len = x.toNat) : w.extractLsb' start len = x := by
  apply BitVec.eq_of_toNat_eq
  rw [BitVec.extractLsb'_toNat, Nat.shiftRight_eq_div_pow, h]

/-- The word of SET_ANGLE has OP 2, zeros where format A requires them, and its operands in their fields. -/
theorem decodeCommand_setAngleWord (ch angle : BitVec 8) :
    decodeCommand (setAngleWord ch angle) = .ok (.setAngle ch angle) := by
  have hch := ch.isLt
  have hangle := angle.isLt
  have hword := setAngleWord_toNat ch angle
  have op_eq : (setAngleWord ch angle).extractLsb' 28 4 = 0x2#4 :=
    extractLsb'_eq_of_toNat (by rw [BitVec.toNat_ofNat]; omega)
  have high_eq : (setAngleWord ch angle).extractLsb' 24 4 = 0#4 :=
    extractLsb'_eq_of_toNat (by rw [BitVec.toNat_ofNat]; omega)
  have middle_eq : (setAngleWord ch angle).extractLsb' 8 8 = 0#8 :=
    extractLsb'_eq_of_toNat (by rw [BitVec.toNat_ofNat]; omega)
  have ch_eq : (setAngleWord ch angle).extractLsb' 16 8 = ch := extractLsb'_eq_of_toNat (by omega)
  have angle_eq : (setAngleWord ch angle).extractLsb' 0 8 = angle := extractLsb'_eq_of_toNat (by omega)
  simp [decodeCommand, op_eq, high_eq, middle_eq, ch_eq, angle_eq]

/-- The word of SET_PERIOD has OP 3, zeros where format P requires them, and its operands in their fields. -/
theorem decodeCommand_setPeriodWord (ch : BitVec 8) (ticks : Ticks) :
    decodeCommand (setPeriodWord ch ticks) = .ok (.setPeriod ch ticks) := by
  have hch := ch.isLt
  have hticks := ticks.isLt
  have hword := setPeriodWord_toNat ch ticks
  have op_eq : (setPeriodWord ch ticks).extractLsb' 28 4 = 0x3#4 :=
    extractLsb'_eq_of_toNat (by rw [BitVec.toNat_ofNat]; omega)
  have high_eq : (setPeriodWord ch ticks).extractLsb' 24 4 = 0#4 :=
    extractLsb'_eq_of_toNat (by rw [BitVec.toNat_ofNat]; omega)
  have ch_eq : (setPeriodWord ch ticks).extractLsb' 16 8 = ch := extractLsb'_eq_of_toNat (by omega)
  have ticks_eq : (setPeriodWord ch ticks).extractLsb' 0 16 = ticks := extractLsb'_eq_of_toNat (by omega)
  simp [decodeCommand, op_eq, high_eq, ch_eq, ticks_eq]

/-- Rules R91, R92: every command's word decodes to it. -/
theorem decodeCommand_encodeCommand (c : Command) : decodeCommand (encodeCommand c) = .ok c := by
  cases c with
  | nop => rfl
  | init => rfl
  | setAngle ch angle => exact decodeCommand_setAngleWord ch angle
  | setPeriod ch ticks => exact decodeCommand_setPeriodWord ch ticks

/-- Rule R92: a command has one word. -/
theorem decodeCommand_eq_ok_iff {w : Word} {c : Command} :
    decodeCommand w = .ok c ↔ w = encodeCommand c := by
  constructor
  · intro h
    exact (encodeCommand_of_decodeCommand h).symm
  · rintro rfl
    exact decodeCommand_encodeCommand c

/-- Settles O17: each clause is a command with its one word, as `encodeCommand` writes it out. -/
theorem commandDecodingIsExact : Obligations.CommandDecodingIsExact := fun _ =>
  ⟨decodeCommand_eq_ok_iff, decodeCommand_eq_ok_iff, fun _ _ => decodeCommand_eq_ok_iff,
    fun _ _ => decodeCommand_eq_ok_iff⟩

end Sys2Proof.Machine
end

section
/-! PROOF. ILLEGAL words (rule R101) and the two commands that activate no channel, NOP and INIT (rules R105, R106). -/

namespace Sys2Proof.Machine

/-- A channel after INIT, with REFRESH_TICKS by rule R185's arithmetic and the inactive sentinel as a literal
(rules R22, R106). -/
theorem Channel.deactivate_eq (p : Params) (c : Channel) :
    c.deactivate p =
      { c with
        countdown := BitVec.ofNat 16 (p.set.refreshUs * p.set.tickNum / p.set.tickDen)
        period := 0xFFFF#16 } := rfl

theorem exec_nop (s : State) : exec .nop s = .next s.answerWrite := rfl

theorem exec_init (s : State) : exec .init s = .next s.opInit.answerWrite := rfl

/-- Rules R69, R100: a CMD write of a command's word is the command. -/
theorem exec_wrCmd_encodeCommand (c : Command) (s : State) :
    exec (.wrCmd (encodeCommand c)) s = exec c.toInstr s := by
  rw [exec_wrCmd, exec_toInstr (decodeCommand_encodeCommand c)]

/-- Settles O28: 0x10000000 is INIT's word, and the answer leaves each channel as INIT makes it. -/
theorem initDeactivatesEveryChannel : Obligations.InitDeactivatesEveryChannel := by
  refine fun s => ⟨exec_wrCmd_encodeCommand .init s, _, exec_init s, rfl, fun i => ?_⟩
  calc s.opInit.answerWrite.channel i
      = s.opInit.channel i := channel_congr (State.answerWrite_chans s.opInit) i
    _ = (s.channel i).deactivate s.params := channel_opInit s i
    _ = _ := Channel.deactivate_eq s.params (s.channel i)

/-- Settles O22, as the part of O21 about words that decode as ILLEGAL. -/
theorem illegalWordIsRejected : Obligations.IllegalWordIsRejected := by
  intro s w r hr
  obtain ⟨-, -, hillegal⟩ := cmdWritePerformsItsCommand s w
  exact hillegal r hr

/-- Settles O27: 0 is NOP's word, and NOP only answers. -/
theorem nopOnlyIsAnswered : Obligations.NopOnlyIsAnswered := fun s =>
  ⟨exec_wrCmd_encodeCommand .nop s, exec_nop s⟩

end Sys2Proof.Machine
end

section
/-! PROOF. TICK and the compare match: a TICK at its turn (rule R143), and who sets and clears PENDING (rules R28,
R144). -/

namespace Sys2Proof.Machine

/-- At a TICK's turn the step is the TICK, with a listed one taken off the list. -/
theorem step_of_tick {s : State} (h : s.nextTurn = .tick) : step s = .next s.takeEvent.tick := by
  simp only [step, h]

/-- Rule R143 in the words of the rule: PENDING is set on a match and else kept, and `pend_age` counts where a
match was pending and enabled before. -/
theorem State.tick_eq (s : State) :
    s.tick = { s with
      pendAge := if s.pending = true ∧ s.en = true
        then min (s.pendAge + 1) (s.params.set.dispatchLatencyMax + 1) else s.pendAge
      counter := s.counter + 1
      pending := if s.counter + 1 = s.compare then true else s.pending } := by
  have hdue : s.due = true ↔ s.pending = true ∧ s.en = true := by simp [State.due, and_comm]
  have hmatch : (s.pending || s.counter + 1 == s.compare) =
      if s.counter + 1 = s.compare then true else s.pending := by
    by_cases heq : s.counter + 1 = s.compare
    · rw [if_pos heq, heq, beq_self_eq_true, Bool.or_true]
    · rw [if_neg heq, beq_false_of_ne heq, Bool.or_false]
  simp only [State.tick, hdue, hmatch]

/-- Settles O33: the step is the TICK on the state with the listed tick taken off. -/
theorem tickCountsAndMatches : Obligations.TickCountsAndMatches := fun s h =>
  ⟨s.takeEvent.tick, step_of_tick h, State.tick_eq s.takeEvent⟩

/-- No command changes PENDING (rule R104). -/
@[simp] theorem executeCommand_pending (s : State) (w : Word) :
    (s.executeCommand w).pending = s.pending := by
  obtain e | e | e | ⟨-, e⟩ | ⟨-, e⟩ | ⟨_, _, _, -, -, -, -, e⟩ | ⟨_, _, _, -, -, -, -, e⟩ :=
    executeCommand_cases s w <;> rw [e] <;> rfl

/-- A host access changes PENDING only as a STATUS write with bit 0 set, which clears it (rules R28, R66). -/
theorem pending_of_performAccess {a : BusAccess} {s t : State} (h : performAccess a s = .next t) :
    t.pending = s.pending ∨
    t.pending = false ∧ ∃ v, a = .write 0x08 4 v ∧ v.getLsbD 0 = true := by
  obtain ⟨w, -, e⟩ | ⟨v, -, e⟩ | ⟨v, ha, e⟩ | ⟨v, -, e⟩ | e | ⟨r, e⟩ := performAccess_cases a s <;>
    rw [e] at h <;> cases h
  case inr.inr.inl =>
    have hpending := and_not_eq_ite s.pending (v.getLsbD 0)
    by_cases hv : v.getLsbD 0 = true
    · exact .inr ⟨hpending.trans (if_pos hv), v, ha, hv⟩
    · exact .inl (hpending.trans (if_neg hv))
  all_goals exact .inl (by simp)

/-- Rules R28, R144: all a step can do to PENDING. It is a TICK, or it clears PENDING in one of three ways, or it
leaves it. -/
theorem pending_of_step {s t : State} (h : step s = .next t) :
    (s.nextTurn = .tick ∧ t = s.takeEvent.tick) ∨
    (s.nextTurn ≠ .tick ∧ t.pending = false ∧
      (s.nextTurn = .dispatch ∨ s.nextTurn = .reset ∨
        ∃ v, s.nextTurn = .access (.write 0x08 4 v) ∧ v.getLsbD 0 = true)) ∨
    (s.nextTurn ≠ .tick ∧ t.pending = s.pending) := by
  obtain ⟨hn, rfl⟩ | ⟨hn, rfl⟩ | ⟨hn, rfl⟩ | ⟨hn, rfl⟩ | ⟨a, hn, ha⟩ := step_cases h
  · exact .inr (.inl ⟨by simp [hn], rfl, .inr (.inl hn)⟩)
  · exact .inl ⟨hn, rfl⟩
  · exact .inr (.inl ⟨by simp [hn], rfl, .inl hn⟩)
  · exact .inr (.inr ⟨by simp [hn], rfl⟩)
  · obtain hkept | ⟨hcleared, v, rfl, hv⟩ := pending_of_performAccess ha
    · exact .inr (.inr ⟨by simp [hn], hkept⟩)
    · exact .inr (.inl ⟨by simp [hn], hcleared, .inr (.inr ⟨v, hn, hv⟩)⟩)

/-- Settles O34, by what the step does to PENDING: a TICK sets it by the match alone, and no other step sets it. -/
theorem matchFiresOnlyOnTickIntoEquality : Obligations.MatchFiresOnlyOnTickIntoEquality := by
  intro s t h
  obtain ⟨htick, rfl⟩ | ⟨hother, hcleared, hby⟩ | ⟨hother, hkept⟩ := pending_of_step h
  · refine ⟨fun hp => ?_, fun hp _ => ?_, fun hp hcleared => ?_⟩
    · simp [htick, hp]
    · simp [hp]
    · simp [hp] at hcleared
  · exact ⟨fun _ => by simp [hother, hcleared], fun _ htick => absurd htick hother, fun _ _ => hby⟩
  · refine ⟨fun hp => ?_, fun _ htick => absurd htick hother, fun hp hcleared => ?_⟩
    · simp [hother, hkept, hp]
    · simp [hkept, hp] at hcleared

end Sys2Proof.Machine
end

section
/-! PROOF. A DISPATCH with no active channel (rule R156). -/

namespace Sys2Proof.Machine

/-- At a DISPATCH's turn the step is the DISPATCH; the list stays. -/
theorem step_of_dispatch {s : State} (h : s.nextTurn = .dispatch) : step s = .next s.dispatch := by
  simp only [step, h]

/-- With no active channel a DISPATCH drains none (rule R150). -/
theorem drainedChannels_of_idle {s : State} (h : ∀ i : ChannelIx, (s.channel i).period = 0xFFFF#16) :
    s.drainedChannels = s.chans :=
  channels_ext fun i => (channel_dispatch s i).trans (drain_of_inactive s.params s.elapsed (h i))

/-- The idle sentinel is no near miss: `NEAR_MISS_EPS` is a 16-bit value (rules R6, R34), so the diagnostic does not
toggle. -/
theorem diagToggles_idleSentinel (s : State) : diagToggles s Config.idleSentinel = false := by
  have heps : s.params.set.nearMissEps ≤ 0xFFFF := by
    have hbounds := legal_bounds s.params
    omega
  have hfar : ¬ Config.idleSentinel.toNat < s.params.set.nearMissEps := by
    have hidle : Config.idleSentinel.toNat = 0x10000 := rfl
    omega
  simp [diagToggles, hfar]

/-- Rule R156: a DISPATCH with no active channel, whole. -/
theorem dispatch_of_idle {s : State} (h : ∀ i : ChannelIx, (s.channel i).period = 0xFFFF#16) :
    s.dispatch = { s with
      pending := false, pendAge := 0
      compare := s.compare + heartbeatStep s.params, elapsed := heartbeatStep s.params } := by
  simp [State.dispatch, drainedChannels_of_idle h, nextDelay_idle (cs := s.chans) h,
    diagToggles_idleSentinel, compareAdvance, nextElapsed]

/-- Settles O42: the step is the DISPATCH, with no active channel. -/
theorem idleDispatchAdvancesByHeartbeat : Obligations.IdleDispatchAdvancesByHeartbeat := by
  intro s hturn hidle
  rw [step_of_dispatch hturn, dispatch_of_idle hidle]
  rfl

end Sys2Proof.Machine
end

section
/-! PROOF. The encodings of commands and bus transactions as bytes (rules R91, R92, R95; assumption 10): decoding and
encoding are inverse to each other. -/

namespace Sys2Proof

/-! ## Keys in two bytes -/

theorem wordKey_toNat (wr : Bool) (off : Byte) :
    (wordKey wr off).toNat = wr.toNat * 1024 + 0x300 + off.toNat := by
  have hoff := off.isLt
  obtain ⟨-, -, -, hkey⟩ := keyOf_toNat (keyOf_word wr (Nat.le_of_lt_succ hoff))
  rw [BitVec.ofNat_toNat, BitVec.setWidth_eq] at hkey
  omega

/-- The write bit of a key, from the key as a number (rule R95). -/
theorem getLsbD_ten_eq (k : Key) : k.getLsbD 10 = decide (1024 ≤ k.toNat) := by
  have hk := k.isLt
  rw [BitVec.getLsbD, Nat.testBit_eq_decide_div_mod_eq]
  exact decide_eq_decide.2 (by omega)

@[simp] theorem getLsbD_ten_wordKey (wr : Bool) (off : Byte) : (wordKey wr off).getLsbD 10 = wr := by
  have hoff := off.isLt
  rw [getLsbD_ten_eq, wordKey_toNat]
  cases wr
  · exact decide_eq_false (by rw [Bool.toNat_false]; omega)
  · exact decide_eq_true (by rw [Bool.toNat_true]; omega)

/-- A key with `NM1 = 3` is that of a word access, by its write bit and its offset (rule R95). -/
theorem eq_wordKey_of_width {k : Key} (h : k.extractLsb' 8 2 = 3#2) :
    k = wordKey (k.getLsbD 10) (k.extractLsb' 0 8) := by
  have hk := k.isLt
  have hwidth := congrArg BitVec.toNat h
  apply BitVec.eq_of_toNat_eq
  simp only [BitVec.extractLsb'_toNat, Nat.shiftRight_eq_div_pow, BitVec.toNat_ofNat] at hwidth
  rw [wordKey_toNat, BitVec.extractLsb'_toNat, Nat.shiftRight_eq_div_pow, getLsbD_ten_eq]
  by_cases hwrite : 1024 ≤ k.toNat
  · rw [decide_eq_true hwrite, Bool.toNat_true]
    omega
  · rw [decide_eq_false hwrite, Bool.toNat_false]
    omega

/-- A key in two bytes is read back. -/
theorem keyOfBytes_of_key (k : Key) :
    keyOfBytes (k.extractLsb' 0 8) ((k.extractLsb' 8 3).setWidth 8) = some k := by
  have hk := k.isLt
  have hhigh : ((k.extractLsb' 8 3).setWidth 8).extractLsb' 3 5 = 0#5 := by
    apply BitVec.eq_of_toNat_eq
    simp only [BitVec.extractLsb'_toNat, BitVec.toNat_setWidth, Nat.shiftRight_eq_div_pow,
      BitVec.toNat_ofNat]
    omega
  refine (if_pos hhigh).trans (congrArg some (BitVec.eq_of_toNat_eq ?_))
  rw [BitVec.toNat_append, ← Nat.shiftLeft_add_eq_or_of_lt (BitVec.isLt _)]
  simp only [BitVec.extractLsb'_toNat, BitVec.toNat_setWidth, Nat.shiftRight_eq_div_pow,
    Nat.shiftLeft_eq]
  omega

/-- Two bytes that hold a key are that key's two bytes. -/
theorem bytesOfKey_of_keyOfBytes {b0 b1 : Byte} {k : Key} (h : keyOfBytes b0 b1 = some k) :
    bytesOfKey k = [b0, b1] := by
  have h0 := b0.isLt
  have h1 := b1.isLt
  unfold keyOfBytes at h
  split_ifs at h with hhigh
  cases h
  have hhigh := congrArg BitVec.toNat hhigh
  simp only [BitVec.extractLsb'_toNat, Nat.shiftRight_eq_div_pow, BitVec.ofNat_eq_ofNat,
    BitVec.toNat_ofNat] at hhigh
  have hkey : (b1.extractLsb' 0 3 ++ b0 : Key).toNat = b1.toNat * 256 + b0.toNat := by
    rw [BitVec.toNat_append, ← Nat.shiftLeft_add_eq_or_of_lt (BitVec.isLt _)]
    simp only [BitVec.extractLsb'_toNat, Nat.shiftRight_eq_div_pow, Nat.shiftLeft_eq]
    omega
  have hlow : (b1.extractLsb' 0 3 ++ b0 : Key).extractLsb' 0 8 = b0 :=
    BitVec.eq_of_toNat_eq (by
      rw [BitVec.extractLsb'_toNat, Nat.shiftRight_eq_div_pow, hkey]; omega)
  have htop : ((b1.extractLsb' 0 3 ++ b0 : Key).extractLsb' 8 3).setWidth 8 = b1 :=
    BitVec.eq_of_toNat_eq (by
      rw [BitVec.toNat_setWidth, BitVec.extractLsb'_toNat, Nat.shiftRight_eq_div_pow, hkey]; omega)
  simp only [bytesOfKey, hlow, htop]

/-! ## Decoding what the encoder writes -/

/-- The four bytes of a word decode as that command word. -/
theorem decodeBytes_bytesOfWord (w : Word) :
    decodeBytes (bytesOfWord w) = (decodeCommand w).map Command.toInstr := by
  simp only [bytesOfWord, decodeBytes, wordOfBytes_byteOfWord]

/-- The two bytes of a read's key decode as that key. -/
theorem decodeBytes_bytesOfKey {k : Key} (h : k.getLsbD 10 = false) :
    decodeBytes (bytesOfKey k) = decodeKey k 0 := by
  simp only [bytesOfKey, decodeBytes, keyOfBytes_of_key, h, Bool.false_eq_true, if_false]

/-- The bytes of a write's key and of its data decode as that key with that data. -/
theorem decodeBytes_bytesOfKey_append {k : Key} (h : k.getLsbD 10 = true) (v : Word) :
    decodeBytes (bytesOfKey k ++ bytesOfWord v) = decodeKey k v := by
  simp only [bytesOfKey, bytesOfWord, List.cons_append, List.nil_append, decodeBytes,
    keyOfBytes_of_key, h, if_true, wordOfBytes_byteOfWord]

theorem encodeRead_eq (off : Byte) : encodeRead off = bytesOfKey (wordKey false off) := rfl

theorem encodeWrite_eq (off : Byte) (v : Word) :
    encodeWrite off v = bytesOfKey (wordKey true off) ++ bytesOfWord v := rfl

theorem decodeBytes_encodeRead (off : Byte) :
    decodeBytes (encodeRead off) = decodeKey (wordKey false off) 0 := by
  rw [encodeRead_eq, decodeBytes_bytesOfKey (getLsbD_ten_wordKey _ _)]

theorem decodeBytes_encodeWrite (off : Byte) (v : Word) :
    decodeBytes (encodeWrite off v) = decodeKey (wordKey true off) v := by
  rw [encodeWrite_eq, decodeBytes_bytesOfKey_append (getLsbD_ten_wordKey _ _)]

/-- An encoded read is the operation of the first row its key hits (rule R95). -/
theorem decodeBytes_encodeRead_of_row {off : Byte} {n : Nat} {r : BusRow}
    (hk : busRows.findIdx (BusRow.hits (wordKey false off)) = n) (hr : busRows[n]? = some r) :
    decodeBytes (encodeRead off) = .ok (r.op off 0) := by
  rw [decodeBytes_encodeRead, decodeKey_of_findIdx hk hr, extractLsb'_wordKey]

/-- An encoded write is the operation of the first row its key hits (rule R95). -/
theorem decodeBytes_encodeWrite_of_row {off : Byte} {n : Nat} {r : BusRow}
    (hk : busRows.findIdx (BusRow.hits (wordKey true off)) = n) (hr : busRows[n]? = some r) (v : Word) :
    decodeBytes (encodeWrite off v) = .ok (r.op off v) := by
  rw [decodeBytes_encodeWrite, decodeKey_of_findIdx hk hr, extractLsb'_wordKey]

theorem channelOffset_eq (i : ChannelIx) : channelOffset i = BitVec.ofNat 8 (0x40 + 4 * i.val) := by
  rw [channelOffset, BitVec.ofNat_add, BitVec.ofNat_mul]

/-- A command is encoded as its word. -/
theorem encode_toInstr (c : Command) : encode c.toInstr = bytesOfWord (encodeCommand c) := by
  cases c <;> rfl

theorem wellFormed_toInstr (c : Command) : c.toInstr.wellFormed = true := by
  cases c <;> rfl

end Sys2Proof

namespace Sys2Proof.Machine

/-- A command's encoding decodes to it (rules R91, R92). -/
theorem decodeBytes_encode_toInstr (c : Command) : decodeBytes (encode c.toInstr) = .ok c.toInstr := by
  rw [encode_toInstr, decodeBytes_bytesOfWord, decodeCommand_encodeCommand]
  rfl

/-- Settles O19: a command by its word, a register access by its one key, and an access to a range of offsets by the
row of that range. -/
theorem decodeOfEncodeIsIdentity : Obligations.DecodeOfEncodeIsIdentity := by
  intro i hwf
  cases i with
  | nop => exact decodeBytes_encode_toInstr .nop
  | init => exact decodeBytes_encode_toInstr .init
  | setAngle ch angle => exact decodeBytes_encode_toInstr (.setAngle ch angle)
  | setPeriod ch ticks => exact decodeBytes_encode_toInstr (.setPeriod ch ticks)
  | rdCmd | rdCtrl | rdStatus | rdErrcmd | rdCounter | rdCompare | rdElapsed | rdPins =>
    exact (decodeBytes_encodeRead _).trans rfl
  | wrCmd v | wrCtrl v | wrStatus v | wrErrcmd v | wrCounter v | wrCompare v | wrElapsed v | wrPins v =>
    exact (decodeBytes_encodeWrite _ v).trans rfl
  | rdCh i =>
    obtain ⟨hrow, hch⟩ := channel_row false i
    rw [← channelOffset_eq] at hrow hch
    simpa only [encode, hch] using decodeBytes_encodeRead_of_row hrow rfl
  | wrCh i v =>
    obtain ⟨hrow, hch⟩ := channel_row true i
    rw [← channelOffset_eq] at hrow hch
    simpa only [encode, hch] using decodeBytes_encodeWrite_of_row hrow rfl v
  | rdUnmappedLow off => exact decodeBytes_encodeRead_of_row (unmappedLow_row false off hwf) rfl
  | wrUnmappedLow off v => exact decodeBytes_encodeWrite_of_row (unmappedLow_row true off hwf) rfl v
  | rdUnmappedHigh off => exact decodeBytes_encodeRead_of_row (unmappedHigh_row false off hwf) rfl
  | wrUnmappedHigh off v => exact decodeBytes_encodeWrite_of_row (unmappedHigh_row true off hwf) rfl v

end Sys2Proof.Machine
end

section
/-! PROOF. The register window (rules R51, R53, R54): every aligned word of it is an operation, so that the decoders
accept exactly the legal transactions, and each in one encoding only (rules R92, R95). -/

namespace Sys2Proof

/-- Rule R51's map of the aligned offsets: the eight registers from CMD to PINS, the channels, and the two unmapped
ranges. -/
theorem window_cases {off : Nat} (halign : off % 4 = 0) (hoff : off ≤ 0xFC) :
    off ∈ [0x00, 0x04, 0x08, 0x0C, 0x10, 0x14, 0x18, 0x1C] ∨ (∃ i : ChannelIx, off = 0x40 + 4 * i.val) ∨
    (0x20 ≤ off ∧ off ≤ 0x3C) ∨ (0x80 ≤ off ∧ off ≤ 0xFC) := by
  by_cases hregister : off < 0x20
  · refine .inl ?_
    simp only [List.mem_cons, List.not_mem_nil, or_false]
    omega
  · by_cases hchannel : 0x40 ≤ off ∧ off < 0x80
    · have hlt : (off - 0x40) / 4 < 16 := by omega
      have hval : off = 0x40 + 4 * ((off - 0x40) / 4) := by omega
      exact .inr (.inl ⟨⟨(off - 0x40) / 4, hlt⟩, hval⟩)
    · omega

theorem unmappedLow_ofNat {off : Nat} (halign : off % 4 = 0) (hrange : 0x20 ≤ off ∧ off ≤ 0x3C) :
    unmappedLow (BitVec.ofNat 8 off) = true := by
  have hoff : off % 256 = off := Nat.mod_eq_of_lt (by omega)
  simp [unmappedLow, hoff, halign, hrange]

theorem unmappedHigh_ofNat {off : Nat} (halign : off % 4 = 0) (hrange : 0x80 ≤ off ∧ off ≤ 0xFC) :
    unmappedHigh (BitVec.ofNat 8 off) = true := by
  have hoff : off % 256 = off := Nat.mod_eq_of_lt (by omega)
  simp [unmappedHigh, hoff, halign, hrange]

/-- Every aligned word read is the encoding of an operation (rules R51, R53). -/
theorem exists_encode_eq_encodeRead {off : Nat} (halign : off % 4 = 0) (hoff : off ≤ 0xFC) :
    ∃ i : Instr, i.wellFormed = true ∧ encode i = encodeRead (BitVec.ofNat 8 off) := by
  obtain hregister | ⟨i, rfl⟩ | hlow | hhigh := window_cases halign hoff
  · simp only [List.mem_cons, List.not_mem_nil, or_false] at hregister
    obtain rfl | rfl | rfl | rfl | rfl | rfl | rfl | rfl := hregister
    · exact ⟨.rdCmd, rfl, rfl⟩
    · exact ⟨.rdCtrl, rfl, rfl⟩
    · exact ⟨.rdStatus, rfl, rfl⟩
    · exact ⟨.rdErrcmd, rfl, rfl⟩
    · exact ⟨.rdCounter, rfl, rfl⟩
    · exact ⟨.rdCompare, rfl, rfl⟩
    · exact ⟨.rdElapsed, rfl, rfl⟩
    · exact ⟨.rdPins, rfl, rfl⟩
  · exact ⟨.rdCh i, rfl, congrArg encodeRead (channelOffset_eq i)⟩
  · exact ⟨.rdUnmappedLow _, unmappedLow_ofNat halign hlow, rfl⟩
  · exact ⟨.rdUnmappedHigh _, unmappedHigh_ofNat halign hhigh, rfl⟩

/-- Every aligned word write is the encoding of an operation (rules R51, R53). -/
theorem exists_encode_eq_encodeWrite {off : Nat} (halign : off % 4 = 0) (hoff : off ≤ 0xFC) (v : Word) :
    ∃ i : Instr, i.wellFormed = true ∧ encode i = encodeWrite (BitVec.ofNat 8 off) v := by
  obtain hregister | ⟨i, rfl⟩ | hlow | hhigh := window_cases halign hoff
  · simp only [List.mem_cons, List.not_mem_nil, or_false] at hregister
    obtain rfl | rfl | rfl | rfl | rfl | rfl | rfl | rfl := hregister
    · exact ⟨.wrCmd v, rfl, rfl⟩
    · exact ⟨.wrCtrl v, rfl, rfl⟩
    · exact ⟨.wrStatus v, rfl, rfl⟩
    · exact ⟨.wrErrcmd v, rfl, rfl⟩
    · exact ⟨.wrCounter v, rfl, rfl⟩
    · exact ⟨.wrCompare v, rfl, rfl⟩
    · exact ⟨.wrElapsed v, rfl, rfl⟩
    · exact ⟨.wrPins v, rfl, rfl⟩
  · exact ⟨.wrCh i v, rfl, congrArg (encodeWrite · v) (channelOffset_eq i)⟩
  · exact ⟨.wrUnmappedLow _ v, unmappedLow_ofNat halign hlow, rfl⟩
  · exact ⟨.wrUnmappedHigh _ v, unmappedHigh_ofNat halign hhigh, rfl⟩

end Sys2Proof

namespace Sys2Proof.Machine

/-- A key that decodes is that of a word access at an aligned offset (rules R53, R95). -/
theorem wordKey_of_decodeKey {k : Key} {v : Word} {i : Instr} (h : decodeKey k v = .ok i) :
    ∃ off : Nat, off % 4 = 0 ∧ off ≤ 0xFC ∧ k = wordKey (k.getLsbD 10) (BitVec.ofNat 8 off) := by
  obtain ⟨hwidth, halign⟩ := word_aligned_of_decodeKey h
  have hkey := eq_wordKey_of_width hwidth
  have halign := congrArg BitVec.toNat halign
  have hoff := (k.extractLsb' 0 8).isLt
  simp only [BitVec.extractLsb'_toNat, Nat.shiftRight_eq_div_pow, BitVec.toNat_ofNat] at halign hoff
  refine ⟨(k.extractLsb' 0 8).toNat, ?_, ?_, ?_⟩
  · rw [BitVec.extractLsb'_toNat, Nat.shiftRight_eq_div_pow]
    omega
  · rw [BitVec.extractLsb'_toNat, Nat.shiftRight_eq_div_pow]
    omega
  · rwa [BitVec.ofNat_toNat, BitVec.setWidth_eq]

/-- The operation a read's key decodes to has that key for its encoding. -/
theorem encode_of_decodeKey_read {k : Key} {i : Instr} (hread : k.getLsbD 10 = false)
    (h : decodeKey k 0 = .ok i) : i.wellFormed = true ∧ encode i = bytesOfKey k := by
  obtain ⟨off, halign, hoff, hkey⟩ := wordKey_of_decodeKey h
  rw [hread] at hkey
  obtain ⟨j, hwf, hj⟩ := exists_encode_eq_encodeRead halign hoff
  have hdecode := decodeOfEncodeIsIdentity j hwf
  rw [hj, decodeBytes_encodeRead, ← hkey, h] at hdecode
  cases hdecode
  exact ⟨hwf, by rw [hj, encodeRead_eq, ← hkey]⟩

/-- The operation a write's key decodes to, with a data word, has that key and that word for its encoding. -/
theorem encode_of_decodeKey_write {k : Key} {v : Word} {i : Instr} (hwrite : k.getLsbD 10 = true)
    (h : decodeKey k v = .ok i) : i.wellFormed = true ∧ encode i = bytesOfKey k ++ bytesOfWord v := by
  obtain ⟨off, halign, hoff, hkey⟩ := wordKey_of_decodeKey h
  rw [hwrite] at hkey
  obtain ⟨j, hwf, hj⟩ := exists_encode_eq_encodeWrite halign hoff v
  have hdecode := decodeOfEncodeIsIdentity j hwf
  rw [hj, decodeBytes_encodeWrite, ← hkey, h] at hdecode
  cases hdecode
  exact ⟨hwf, by rw [hj, encodeWrite_eq, ← hkey]⟩

/-- Settles O20, by the three layouts of bytes: a command word, a read's key, and a write's key with its data. -/
theorem encodeOfDecodeIsIdentity : Obligations.EncodeOfDecodeIsIdentity := by
  intro bs i h
  unfold decodeBytes at h
  split at h
  · rename_i b0 b1 b2 b3
    cases hc : decodeCommand (wordOfBytes b0 b1 b2 b3) with
    | error r => rw [hc] at h; cases h
    | ok c =>
      rw [hc] at h
      cases h
      refine ⟨wellFormed_toInstr c, ?_⟩
      rw [encode_toInstr, encodeCommand_of_decodeCommand hc, bytesOfWord_wordOfBytes]
  · split at h
    · rename_i k hk
      split_ifs at h with hwrite
      have hread : k.getLsbD 10 = false := eq_false_of_ne_true hwrite
      rw [← bytesOfKey_of_keyOfBytes hk]
      exact encode_of_decodeKey_read hread h
    · cases h
  · split at h
    · rename_i k hk
      split_ifs at h with hwrite
      obtain ⟨hwf, hencode⟩ := encode_of_decodeKey_write hwrite h
      rw [bytesOfKey_of_keyOfBytes hk, bytesOfWord_wordOfBytes] at hencode
      exact ⟨hwf, hencode⟩
    · cases h
  · cases h

/-- Every aligned word access of the window decodes to an operation (rule R53). -/
theorem exists_decodeAccess_of_legal {off : Nat} (halign : off % 4 = 0) (hoff : off ≤ 0xFC) (v : Word) :
    (∃ i, decodeAccess (.read off 4) = .ok i) ∧ ∃ i, decodeAccess (.write off 4 v) = .ok i := by
  have hle : off ≤ 0xFF := by omega
  obtain ⟨i, hi, hread⟩ := exists_encode_eq_encodeRead halign hoff
  obtain ⟨j, hj, hwrite⟩ := exists_encode_eq_encodeWrite halign hoff v
  have hi := decodeOfEncodeIsIdentity i hi
  have hj := decodeOfEncodeIsIdentity j hj
  rw [hread, decodeBytes_encodeRead] at hi
  rw [hwrite, decodeBytes_encodeWrite] at hj
  exact ⟨⟨i, by simp only [decodeAccess, keyOf_word false hle, hi]⟩,
    ⟨j, by simp only [decodeAccess, keyOf_word true hle, hj]⟩⟩

/-- Settles O14: what decodes is legal, and every aligned word of the window is an operation. -/
theorem legalAccessesAreTheAlignedWords : Obligations.LegalAccessesAreTheAlignedWords := by
  intro off n v
  constructor
  · constructor
    · rintro ⟨i, hi⟩
      obtain ⟨_, ha | ⟨_, ha⟩, hlegal⟩ := legal_of_decodeAccess hi <;> cases ha
      exact ⟨rfl, hlegal⟩
    · rintro ⟨rfl, halign, hoff⟩
      exact (exists_decodeAccess_of_legal halign hoff v).1
  · constructor
    · rintro ⟨i, hi⟩
      obtain ⟨_, ha | ⟨_, ha⟩, hlegal⟩ := legal_of_decodeAccess hi <;> cases ha
      exact ⟨rfl, hlegal⟩
    · rintro ⟨rfl, halign, hoff⟩
      exact (exists_decodeAccess_of_legal halign hoff v).2

/-! ## The key table -/

/-- Rule R95, over the word accesses: an aligned offset is in one row. -/
theorem wordKey_hits_one_row : ∀ (wr : Bool) (off : Byte), off.extractLsb' 0 2 = 0#2 →
    (busRows.filter (BusRow.hits (wordKey wr off))).length = 1 := by
  decide

/-- A key that hits a row of the table decodes. -/
theorem exists_decodeKey_of_hits {k : Key} {r : BusRow} (hr : r ∈ busRows) (hits : BusRow.hits k r = true) :
    ∃ i, decodeKey k 0 = .ok i := by
  have hfound : (busRows.find? (BusRow.hits k)).isSome = true := List.find?_isSome.2 ⟨r, hr, hits⟩
  obtain ⟨r', hr'⟩ := Option.isSome_iff_exists.1 hfound
  exact ⟨_, by simp only [decodeKey, hr']; rfl⟩

/-- Settles O18: a legal key is that of a word access at an aligned offset, and no other key hits any row. -/
theorem legalKeysMatchExactlyOneRow : Obligations.LegalKeysMatchExactlyOneRow := by
  intro k
  split_ifs with hlegal
  · obtain ⟨hwidth, halign⟩ := hlegal
    have hoff : (k.extractLsb' 0 8).extractLsb' 0 2 = 0#2 := by
      rw [← halign]
      apply BitVec.eq_of_toNat_eq
      simp only [BitVec.extractLsb'_toNat, Nat.shiftRight_eq_div_pow]
      omega
    rw [eq_wordKey_of_width hwidth]
    exact wordKey_hits_one_row _ _ hoff
  · rw [List.length_eq_zero_iff, List.filter_eq_nil_iff]
    intro r hr hits
    obtain ⟨i, hi⟩ := exists_decodeKey_of_hits hr hits
    exact hlegal (word_aligned_of_decodeKey hi)

/-- Settles O16: the words of NOP, INIT and the SETs as those of their commands, the others by evaluation. -/
theorem exampleWordsAndKeysDecode : Obligations.ExampleWordsAndKeysDecode :=
  ⟨decodeCommand_encodeCommand .nop, decodeCommand_encodeCommand .init,
    decodeCommand_encodeCommand (.setAngle 3 90), decodeCommand_encodeCommand (.setAngle 255 255),
    decodeCommand_encodeCommand (.setPeriod 5 1000), rfl, rfl, rfl, rfl, rfl, rfl, rfl, rfl, rfl⟩

/-! ## Reads -/

/-- The map shows CH[i] at its offset (rule R51). -/
theorem windowWord_channel (s : State) (i : ChannelIx) :
    s.windowWord (0x40 + 4 * i.val) = s.channelWord i := by
  have hi : i.val < 16 := i.isLt
  have hindex : Fin.ofNat numChannels ((0x40 + 4 * i.val - 0x40) / 4) = i := by
    apply Fin.ext
    rw [Fin.val_ofNat]
    show (0x40 + 4 * i.val - 0x40) / 4 % 16 = i.val
    omega
  have hrange : 0x40 ≤ 0x40 + 4 * i.val ∧ 0x40 + 4 * i.val ≤ 0x7C := by omega
  unfold State.windowWord
  iterate 7 rw [if_neg (by omega)]
  rw [if_pos hrange, hindex]

/-- The map shows 0 at an unmapped offset (rule R55). -/
theorem windowWord_unmapped (s : State) {off : Nat}
    (h : (0x20 ≤ off ∧ off ≤ 0x3C) ∨ (0x80 ≤ off ∧ off ≤ 0xFC)) : s.windowWord off = 0 := by
  unfold State.windowWord
  iterate 8 rw [if_neg (by omega)]

/-- A missing channel's place reads 0 (rule R55; assumption 3). -/
theorem channelWord_of_missing {s : State} {i : ChannelIx} (h : s.params.set.nCh ≤ i.val) :
    s.channelWord i = 0 := if_neg (Nat.not_lt.2 h)

/-- Settles O9, by rule R51's map of the offsets. -/
theorem legalReadShowsRegisterMap : Obligations.LegalReadShowsRegisterMap := by
  intro s
  constructor
  · intro off halign hoff
    obtain hregister | ⟨i, rfl⟩ | hunmapped := window_cases halign hoff
    · simp only [List.mem_cons, List.not_mem_nil, or_false] at hregister
      obtain rfl | rfl | rfl | rfl | rfl | rfl | rfl | rfl := hregister
      · exact performAccess_of_ok (i := .rdCmd) rfl s
      · exact performAccess_of_ok (i := .rdCtrl) rfl s
      · exact performAccess_of_ok (i := .rdStatus) rfl s
      · exact performAccess_of_ok (i := .rdErrcmd) rfl s
      · exact performAccess_of_ok (i := .rdCounter) rfl s
      · exact performAccess_of_ok (i := .rdCompare) rfl s
      · exact performAccess_of_ok (i := .rdElapsed) rfl s
      · exact performAccess_of_ok (i := .rdPins) rfl s
    · rw [performAccess_of_ok (decodeAccess_read_channel i), exec_rdCh, windowWord_channel]
      rfl
    · obtain ⟨-, -, -, -, hzero⟩ := unmappedReadsZeroIgnoresWrites s 0 0
      rw [(hzero off halign hunmapped).1, windowWord_unmapped s hunmapped]
  · intro i hi
    rw [exec_rdCh, channelWord_of_missing hi]
    rfl

end Sys2Proof.Machine
end

section
/-! PROOF. The commands (rules R94, R100 to R104, R120 to R128): what a CMD write may change, and the two SETs
whole. -/

namespace Sys2Proof.Machine

/-! ## What a command reaches -/

/-- Rule R104: a command reaches only the channel table, the three command error bits and ERRCMD. -/
theorem executeCommand_frame (s : State) (w : Word) :
    s.executeCommand w = { s with
      chans := (s.executeCommand w).chans
      errIllegal := (s.executeCommand w).errIllegal, errChannel := (s.executeCommand w).errChannel
      errPeriod := (s.executeCommand w).errPeriod, errcmd := (s.executeCommand w).errcmd } := by
  obtain e | e | e | ⟨-, e⟩ | ⟨-, e⟩ | ⟨_, _, _, -, -, -, -, e⟩ | ⟨_, _, _, -, -, -, -, e⟩ :=
    executeCommand_cases s w <;> rw [e] <;> rfl

@[simp] theorem executeCommand_params (s : State) (w : Word) : (s.executeCommand w).params = s.params := by
  rw [executeCommand_frame]

@[simp] theorem executeCommand_counter (s : State) (w : Word) : (s.executeCommand w).counter = s.counter := by
  rw [executeCommand_frame]

@[simp] theorem executeCommand_compare (s : State) (w : Word) : (s.executeCommand w).compare = s.compare := by
  rw [executeCommand_frame]

@[simp] theorem executeCommand_elapsed (s : State) (w : Word) : (s.executeCommand w).elapsed = s.elapsed := by
  rw [executeCommand_frame]

@[simp] theorem executeCommand_pendAge (s : State) (w : Word) : (s.executeCommand w).pendAge = s.pendAge := by
  rw [executeCommand_frame]

@[simp] theorem executeCommand_en (s : State) (w : Word) : (s.executeCommand w).en = s.en := by
  rw [executeCommand_frame]

@[simp] theorem executeCommand_diagEn (s : State) (w : Word) : (s.executeCommand w).diagEn = s.diagEn := by
  rw [executeCommand_frame]

@[simp] theorem executeCommand_clamp (s : State) (w : Word) : (s.executeCommand w).clamp = s.clamp := by
  rw [executeCommand_frame]

@[simp] theorem executeCommand_errBus (s : State) (w : Word) : (s.executeCommand w).errBus = s.errBus := by
  rw [executeCommand_frame]

@[simp] theorem executeCommand_diag (s : State) (w : Word) : (s.executeCommand w).diag = s.diag := by
  rw [executeCommand_frame]

/-- The word is a SET_ANGLE or a SET_PERIOD of channel `i`. -/
def SetsChannel (w : Word) (i : ChannelIx) : Prop :=
  (∃ ch angle, decodeCommand w = .ok (.setAngle ch angle) ∧ ch.toNat = i.val) ∨
  (∃ ch ticks, decodeCommand w = .ok (.setPeriod ch ticks) ∧ ch.toNat = i.val)

/-- A pulse width that can be stored is no inactive sentinel (rules R22, R123). -/
theorem ofNat_ne_inactive {n : Nat} (h : n < 0xFFFF) : BitVec.ofNat 16 n ≠ 0xFFFF#16 := by
  intro e
  have e := congrArg BitVec.toNat e
  rw [BitVec.toNat_ofNat, BitVec.toNat_ofNat] at e
  omega

/-- All a command can do to a channel: nothing, INIT's deactivation, or a SET of it, which activates it and leaves
its countdown and level. -/
theorem channel_executeCommand_cases (s : State) (w : Word) (i : ChannelIx) :
    (s.executeCommand w).channel i = s.channel i ∨
    (decodeCommand w = .ok .init ∧ (s.executeCommand w).channel i = (s.channel i).deactivate s.params) ∨
    (SetsChannel w i ∧ ∃ p, p ≠ 0xFFFF#16 ∧
      (s.executeCommand w).channel i = { s.channel i with period := p, dir := true }) := by
  have harm (j : ChannelIx) (p : Ticks) : (s.arm j p).channel i = s.channel i ∨
      j = i ∧ (s.arm j p).channel i = { s.channel i with period := p, dir := true } := by
    rw [channel_arm]
    split_ifs with hij
    · exact .inr ⟨hij.symm, by rw [hij]⟩
    · exact .inl rfl
  obtain e | e | e | ⟨-, e⟩ | ⟨hd, e⟩ | ⟨ch, angle, j, hd, hch, -, hp, e⟩ | ⟨ch, ticks, j, hd, hch, -, hp, e⟩ :=
    executeCommand_cases s w <;> rw [e]
  · exact .inl rfl
  · exact .inl rfl
  · exact .inl rfl
  · exact .inl rfl
  · exact .inr (.inl ⟨hd, channel_opInit s i⟩)
  · obtain hkept | ⟨rfl, hset⟩ := harm j (BitVec.ofNat 16 (pulseTicks s.params s.clamp angle))
    · exact .inl hkept
    · exact .inr (.inr ⟨.inl ⟨ch, angle, hd, hch⟩, _, ofNat_ne_inactive hp, hset⟩)
  · obtain hkept | ⟨rfl, hset⟩ := harm j ticks
    · exact .inl hkept
    · exact .inr (.inr ⟨.inr ⟨ch, ticks, hd, hch⟩, ticks, hp, hset⟩)

/-- No command changes a level (rule R23). -/
theorem level_executeCommand (s : State) (w : Word) (i : ChannelIx) :
    ((s.executeCommand w).channel i).level = (s.channel i).level := by
  obtain e | ⟨-, e⟩ | ⟨-, p, -, e⟩ := channel_executeCommand_cases s w i <;> rw [e]
  rfl

@[simp] theorem channel_answerWrite (s : State) (i : ChannelIx) : s.answerWrite.channel i = s.channel i := rfl

/-- Settles O26: a command's frame, and its levels. -/
theorem commandsLeaveSchedulerRegisters : Obligations.CommandsLeaveSchedulerRegisters := by
  intro s w
  refine ⟨_, exec_wrCmd w s, ?_, level_executeCommand s w⟩
  exact congrArg State.answerWrite (executeCommand_frame s w)

/-- Settles O25: of all a command can do, the rejections are the three errors, and the rest touches no error bit. -/
theorem commandRaisesAtMostOneError : Obligations.CommandRaisesAtMostOneError := by
  intro s w
  refine ⟨_, exec_wrCmd w s, ?_⟩
  obtain e | e | e | ⟨-, e⟩ | ⟨-, e⟩ | ⟨_, _, _, -, -, -, -, e⟩ | ⟨_, _, _, -, -, -, -, e⟩ :=
    executeCommand_cases s w <;> rw [e]
  · exact .inr (.inl rfl)
  · exact .inr (.inr (.inl rfl))
  · exact .inr (.inr (.inr rfl))
  all_goals exact .inl ⟨rfl, rfl, rfl, rfl, rfl⟩

/-! ## Reserved encodings -/

/-- Settles O23: each command's word, as a number, has its OP and zeros in the fields its format reserves, so a word
with a reserved encoding is no command's word. -/
theorem reservedEncodingsAreIllegal : Obligations.ReservedEncodingsAreIllegal := by
  intro s w hreserved
  cases hd : decodeCommand w with
  | error r => exact illegalWordIsRejected s w r hd
  | ok c =>
    have hw := encodeCommand_of_decodeCommand hd
    subst hw
    exfalso
    cases c with
    | nop =>
      have hword : (encodeCommand .nop).toNat = 0 := rfl
      omega
    | init =>
      have hword : (encodeCommand .init).toNat = 0x10000000 := rfl
      omega
    | setAngle ch angle =>
      have hword : (encodeCommand (.setAngle ch angle)).toNat = _ := setAngleWord_toNat ch angle
      have hch := ch.isLt
      have hangle := angle.isLt
      omega
    | setPeriod ch ticks =>
      have hword : (encodeCommand (.setPeriod ch ticks)).toNat = _ := setPeriodWord_toNat ch ticks
      have hch := ch.isLt
      have hticks := ticks.isLt
      omega

/-! ## SET_ANGLE and SET_PERIOD -/

theorem exec_setAngle (s : State) (ch angle : BitVec 8) :
    exec (.setAngle ch angle) s = .next (s.opSetAngle (setAngleWord ch angle) ch angle).answerWrite := rfl

theorem exec_setPeriod (s : State) (ch : BitVec 8) (ticks : Ticks) :
    exec (.setPeriod ch ticks) s = .next (s.opSetPeriod (setPeriodWord ch ticks) ch ticks).answerWrite := rfl

/-- Rule R102: a missing channel is rejected. -/
theorem opSetAngle_of_missing {s : State} {ch : BitVec 8} (h : s.params.set.nCh ≤ ch.toNat) (w : Word)
    (angle : BitVec 8) : s.opSetAngle w ch angle = { s with errChannel := true, errcmd := w } := by
  simp only [State.opSetAngle, channelNumber_eq_none.2 h, State.raiseCmdError]

/-- Rule R123: a pulse width that cannot be stored is rejected. -/
theorem opSetAngle_of_unstorable {s : State} {ch angle : BitVec 8} (h : ch.toNat < s.params.set.nCh)
    (hp : 0xFFFF ≤ pulseTicks s.params s.clamp angle) (w : Word) :
    s.opSetAngle w ch angle = { s with errPeriod := true, errcmd := w } := by
  obtain ⟨hn, -⟩ | ⟨_, -, -, -, e⟩ | ⟨_, -, -, hlt, -⟩ := opSetAngle_cases s w ch angle
  · omega
  · exact e
  · omega

/-- Rule R122: an accepted SET_ANGLE arms its channel with the pulse width. -/
theorem opSetAngle_of_accepted {s : State} {ch angle : BitVec 8} {i : ChannelIx} (hch : ch.toNat = i.val)
    (hi : i.val < s.params.set.nCh) (hp : pulseTicks s.params s.clamp angle < 0xFFFF) (w : Word) :
    s.opSetAngle w ch angle = s.arm i (BitVec.ofNat 16 (pulseTicks s.params s.clamp angle)) := by
  obtain ⟨hn, -⟩ | ⟨_, -, -, hge, -⟩ | ⟨j, hj, -, -, e⟩ := opSetAngle_cases s w ch angle
  · omega
  · omega
  · rw [e, Fin.ext (hch.symm.trans hj)]

/-- Rule R102: a missing channel is rejected. -/
theorem opSetPeriod_of_missing {s : State} {ch : BitVec 8} (h : s.params.set.nCh ≤ ch.toNat) (w : Word)
    (ticks : Ticks) : s.opSetPeriod w ch ticks = { s with errChannel := true, errcmd := w } := by
  simp only [State.opSetPeriod, channelNumber_eq_none.2 h, State.raiseCmdError]

/-- Rule R128: the inactive sentinel is rejected. -/
theorem opSetPeriod_of_inactive {s : State} {ch : BitVec 8} (h : ch.toNat < s.params.set.nCh) (w : Word) :
    s.opSetPeriod w ch 0xFFFF#16 = { s with errPeriod := true, errcmd := w } := by
  obtain ⟨hn, -⟩ | ⟨_, -, -, -, e⟩ | ⟨_, -, -, hne, -⟩ := opSetPeriod_cases s w ch 0xFFFF#16
  · omega
  · exact e
  · exact absurd rfl hne

/-- Rule R128: an accepted SET_PERIOD arms its channel with the raw ticks. -/
theorem opSetPeriod_of_accepted {s : State} {ch : BitVec 8} {ticks : Ticks} {i : ChannelIx}
    (hch : ch.toNat = i.val) (hi : i.val < s.params.set.nCh) (hp : ticks ≠ 0xFFFF#16) (w : Word) :
    s.opSetPeriod w ch ticks = s.arm i ticks := by
  obtain ⟨hn, -⟩ | ⟨_, -, -, heq, -⟩ | ⟨j, hj, -, -, e⟩ := opSetPeriod_cases s w ch ticks
  · omega
  · exact absurd heq hp
  · rw [e, Fin.ext (hch.symm.trans hj)]

/-- An accepted SET, answered: its channel has the period and is an output, every other channel and everything else
is as before (rule R124). -/
theorem arm_answerWrite_spec (s : State) (i : ChannelIx) (p : Ticks) :
    (s.arm i p).answerWrite =
      { s with chans := (s.arm i p).answerWrite.chans, response := some (.write false) } ∧
    (s.arm i p).answerWrite.channel i = { s.channel i with period := p, dir := true } ∧
    ∀ j : ChannelIx, j ≠ i → (s.arm i p).answerWrite.channel j = s.channel j := by
  refine ⟨rfl, ?_, fun j hj => ?_⟩
  · rw [channel_answerWrite, channel_arm, if_pos rfl]
  · rw [channel_answerWrite, channel_arm, if_neg hj]

/-- Settles O24: both SETs reject a missing channel with their own word. -/
theorem missingChannelIsRejected : Obligations.MissingChannelIsRejected := by
  intro s ch angle ticks h
  constructor
  · rw [exec_setAngle, opSetAngle_of_missing h]; rfl
  · rw [exec_setPeriod, opSetPeriod_of_missing h]; rfl

/-- Rules R120, R180, R181: the pulse width in ticks, written out. -/
theorem pulseTicks_eq (p : Params) (clamp : Bool) (angle : BitVec 8) :
    pulseTicks p clamp angle =
      (p.set.minPulseUs + (if clamp = true then min angle.toNat p.set.angleSpan else angle.toNat) *
        (p.set.maxPulseUs - p.set.minPulseUs) / p.set.angleSpan) * p.set.tickNum / p.set.tickDen := rfl

/-- Settles O29: the word is SET_ANGLE's, and each clause is one way SET_ANGLE ends. -/
theorem setAngleStoresPulseWidth : Obligations.SetAngleStoresPulseWidth := by
  intro s ch angle word deg us ticks
  have hticks : ticks = pulseTicks s.params s.clamp angle := (pulseTicks_eq s.params s.clamp angle).symm
  rw [hticks]
  refine ⟨exec_wrCmd_encodeCommand (.setAngle ch angle) s, fun hn => ?_, fun hlt hp => ?_,
    fun i hch hi hp => ?_⟩
  · rw [exec_setAngle, opSetAngle_of_missing hn]; rfl
  · rw [exec_setAngle, opSetAngle_of_unstorable hlt hp]; rfl
  · rw [exec_setAngle, opSetAngle_of_accepted hch hi hp]
    exact ⟨_, rfl, arm_answerWrite_spec s i _⟩

/-- Rule R121: with CLAMP = 1 an angle of `ANGLE_SPAN` or more has the pulse width of `MAX_PULSE_US`. -/
theorem pulseTicks_clamped {p : Params} {angle : BitVec 8} (h : p.set.angleSpan ≤ angle.toNat) :
    pulseTicks p true angle = p.set.maxPulseUs * p.set.tickNum / p.set.tickDen := by
  obtain ⟨-, -, -, -, -, -, -, -, -, -, hpulse, hspan⟩ := legal_bounds p
  rw [pulseTicks_eq, if_pos rfl, Nat.min_eq_right h, Nat.mul_div_cancel_left _ hspan,
    Nat.add_sub_cancel' hpulse]

/-- The period an accepted SET_ANGLE stores. -/
theorem period_of_exec_setAngle {s t : State} {ch angle : BitVec 8} {i : ChannelIx} (hch : ch.toNat = i.val)
    (hi : i.val < s.params.set.nCh) (hp : pulseTicks s.params s.clamp angle < 0xFFFF)
    (h : exec (.setAngle ch angle) s = .next t) :
    (t.channel i).period = BitVec.ofNat 16 (pulseTicks s.params s.clamp angle) := by
  rw [exec_setAngle, opSetAngle_of_accepted hch hi hp] at h
  cases h
  rw [channel_answerWrite, channel_arm, if_pos rfl]

/-- Settles O30: the pulse width is that of `MAX_PULSE_US`, and it is stored. -/
theorem clampHoldsPulseAtMaximum : Obligations.ClampHoldsPulseAtMaximum := by
  intro s ch angle i hch hi hclamp hspan hmax
  have hp : pulseTicks s.params s.clamp angle =
      s.params.set.maxPulseUs * s.params.set.tickNum / s.params.set.tickDen := by
    rw [hclamp, pulseTicks_clamped hspan]
  rw [← hp] at hmax ⊢
  refine ⟨_, exec_setAngle s ch angle, ?_⟩
  rw [period_of_exec_setAngle hch hi hmax (exec_setAngle s ch angle)]
  exact Nat.mod_eq_of_lt (Nat.lt_succ_of_lt hmax)

/-- Settles O31: the stored period is the pulse width, which is a function of the parameters, CLAMP and the angle. -/
theorem setAngleIsIdempotentInPeriod : Obligations.SetAngleIsIdempotentInPeriod := by
  intro s t u v ch angle i hch hi hs hp hparams hclamp hu
  have hfirst := period_of_exec_setAngle hch hi hp hs
  rw [← hparams] at hi
  rw [← hparams, ← hclamp] at hp hfirst
  exact (period_of_exec_setAngle hch hi hp hu).trans hfirst.symm

/-- Settles O32: the word is SET_PERIOD's, and each clause is one way SET_PERIOD ends. -/
theorem setPeriodStoresRawTicks : Obligations.SetPeriodStoresRawTicks := by
  intro s ch ticks word
  refine ⟨exec_wrCmd_encodeCommand (.setPeriod ch ticks) s, fun hn => ?_, ?_, fun i hch hi hp => ?_⟩
  · rw [exec_setPeriod, opSetPeriod_of_missing hn]; rfl
  · rintro hlt rfl
    rw [exec_setPeriod, opSetPeriod_of_inactive hlt]; rfl
  · rw [exec_setPeriod, opSetPeriod_of_accepted hch hi hp]
    exact ⟨_, rfl, arm_answerWrite_spec s i ticks⟩

end Sys2Proof.Machine
end

section
/-! PROOF. The arbitration (rules R61, R146, R208, R230, R235): which transaction a listed event lets happen, and the
step that performs it. -/

namespace Sys2Proof.Machine

/-! ## The turn each listed event gives -/

theorem nextTurn_of_reset {s : State} {overtakes : Bool} {rest : List Event}
    (he : s.events = .reset overtakes :: rest) :
    s.nextTurn = if s.dispatchEnabled && !overtakes then .dispatch else .reset := by
  simp only [State.nextTurn, he]

theorem nextTurn_of_tick {s : State} {overtakes : Bool} {rest : List Event}
    (he : s.events = .tick overtakes :: rest) :
    s.nextTurn = if !s.ticking then .stuck
      else if s.due && !(overtakes && s.tickMayOvertake) then .dispatch else .tick := by
  simp only [State.nextTurn, he]

theorem nextTurn_of_access {s : State} {a : BusAccess} {rest : List Event}
    (he : s.events = .access a :: rest) :
    s.nextTurn = if s.dispatchEnabled then .dispatch else if s.due then .stuck else .access a := by
  simp only [State.nextTurn, he]

theorem nextTurn_of_nil {s : State} (he : s.events = []) :
    s.nextTurn = if s.dispatchEnabled then .dispatch else if s.ticking then .tick else .stuck := by
  simp only [State.nextTurn, he]

theorem due_iff (s : State) : s.due = true ↔ s.en = true ∧ s.pending = true := Bool.and_eq_true_iff

theorem due_eq_false_iff (s : State) : s.due = false ↔ s.en = false ∨ s.pending = false :=
  Bool.and_eq_false_iff

theorem dispatchEnabled_iff (s : State) : s.dispatchEnabled = true ↔ s.due = true ∧ s.ticking = true :=
  Bool.and_eq_true_iff

theorem dispatchEnabled_eq_false_iff (s : State) :
    s.dispatchEnabled = false ↔ s.due = false ∨ s.ticking = false := Bool.and_eq_false_iff

/-! ## The step at each turn -/

theorem takeEvent_eq {s : State} {e : Event} {rest : List Event} (he : s.events = e :: rest) :
    s.takeEvent = { s with events := rest } := by
  simp only [State.takeEvent, he, List.tail_cons]

/-- At a reset's turn the step is the reset. -/
theorem step_of_reset {s : State} (h : s.nextTurn = .reset) : step s = .next s.takeEvent.applyReset := by
  simp only [step, h]

/-- At a host access's turn the step performs it. -/
theorem step_of_access {s : State} {a : BusAccess} (h : s.nextTurn = .access a) :
    step s = performAccess a s.takeEvent := by
  simp only [step, h]

/-- A listed host access is performed where no DISPATCH is due (rule R61). -/
theorem step_of_listed_access {s : State} {a : BusAccess} {rest : List Event}
    (he : s.events = .access a :: rest) (hd : s.due = false) :
    step s = performAccess a { s with events := rest } := by
  have hturn : s.nextTurn = .access a := by
    simp [nextTurn_of_access he, (dispatchEnabled_eq_false_iff s).2 (.inl hd), hd]
  rw [step_of_access hturn, takeEvent_eq he]

/-- Settles O37: the access is performed, and what it decodes to is what it does. -/
theorem stepRunsDecodedAccess : Obligations.StepRunsDecodedAccess := by
  intro s a rest i he hdue hi
  rw [step_of_listed_access he ((due_eq_false_iff s).2 hdue), performAccess_of_ok hi]

/-- Settles O35: the turn of a held access is the DISPATCH or none, and the DISPATCH leaves nothing due. -/
theorem dueDispatchHoldsHostAccess : Obligations.DueDispatchHoldsHostAccess := by
  refine fun s => ⟨fun hturn => ?_, fun a rest hen hpending he => ⟨fun hstopped => ?_, fun hticking => ?_⟩⟩
  · obtain ⟨hdue, hticking⟩ := enabled_of_dispatch hturn
    obtain ⟨hen, hpending⟩ := (due_iff s).1 hdue
    exact ⟨hen, hpending, hticking⟩
  · have hdue := (due_iff s).2 ⟨hen, hpending⟩
    have hturn : s.nextTurn = .stuck := by
      simp [nextTurn_of_access he, (dispatchEnabled_eq_false_iff s).2 (.inr hstopped), hdue]
    simp only [step, hturn]
  · have hdue := (due_iff s).2 ⟨hen, hpending⟩
    have hturn : s.nextTurn = .dispatch := by
      rw [nextTurn_of_access he, if_pos ((dispatchEnabled_iff s).2 ⟨hdue, hticking⟩)]
    have hnext : s.dispatch.due = false := (due_eq_false_iff s.dispatch).2 (.inr rfl)
    exact ⟨hturn, s.dispatch, step_of_dispatch hturn, he, rfl, rfl, rfl,
      step_of_listed_access (s := s.dispatch) he hnext⟩

/-- Settles O36: below the bound a tick that overtakes is next; else the DISPATCH is, and the tick stays listed. -/
theorem latencyBoundStopsTheCounter : Obligations.LatencyBoundStopsTheCounter := by
  intro s overtakes rest hen hpending hticking he
  have hdue := (due_iff s).2 ⟨hen, hpending⟩
  by_cases hfirst : overtakes = true ∧ s.pendAge < s.params.set.dispatchLatencyMax
  · obtain ⟨rfl, hlt⟩ := hfirst
    have hturn : s.nextTurn = .tick := by
      simp [nextTurn_of_tick he, hticking, State.tickMayOvertake, hlt]
    have hpendAge : s.takeEvent.tick.pendAge = s.pendAge + 1 := by
      have hdue' : s.takeEvent.due = true := hdue
      rw [State.tick_pendAge, if_pos hdue', State.takeEvent_pendAge, State.takeEvent_params]
      omega
    refine ⟨_, step_of_tick hturn, fun _ => ⟨hturn, rfl, ?_, hpendAge, rfl, ?_⟩, fun hheld => ?_⟩
    · simp [hpending]
    · simp [he]
    · obtain hheld | hheld := hheld
      · cases hheld
      · omega
  · have hturn : s.nextTurn = .dispatch := by
      simpa [nextTurn_of_tick he, hticking, hdue, State.tickMayOvertake] using hfirst
    exact ⟨_, step_of_dispatch hturn, fun h => absurd h hfirst, fun _ => ⟨hturn, rfl, rfl, rfl, he⟩⟩

/-- Settles O2: with no DISPATCH to go first the reset is next; else the DISPATCH is, and the reset stays listed. -/
theorem resetEventRestoresResetValues : Obligations.ResetEventRestoresResetValues := by
  refine fun s overtakes rest he => ⟨fun hfirst => ?_, fun hyields hen hpending hticking => ?_⟩
  · have hturn : s.nextTurn = .reset := by
      refine reset_turn.2 ⟨overtakes, rest, he, fun henabled => ?_⟩
      obtain ⟨hdue, hticking⟩ := (dispatchEnabled_iff s).1 henabled
      obtain ⟨hen, hpending⟩ := (due_iff s).1 hdue
      simpa [hen, hpending, hticking] using hfirst
    rw [step_of_reset hturn, takeEvent_eq he]
    rfl
  · have henabled := (dispatchEnabled_iff s).2 ⟨(due_iff s).2 ⟨hen, hpending⟩, hticking⟩
    have hturn : s.nextTurn = .dispatch := by
      simp [nextTurn_of_reset he, henabled, hyields]
    exact ⟨hturn, _, step_of_dispatch hturn, he⟩

/-! ## Opcode-table words -/

/-- The key that an opcode-table word of a bus row stands for in two bytes is the key of its access, and bit 10 is its
write bit. -/
theorem keyOf_of_keyOfBytes {w : Nat} {k : Key}
    (h : keyOfBytes (BitVec.ofNat 8 w) (BitVec.ofNat 8 (w / 256)) = some k) :
    keyOf (w.testBit 10) (w % 256) (w / 256 % 4 + 1) = some k ∧ k.getLsbD 10 = w.testBit 10 := by
  have hk := k.isLt
  have hkey : k.toNat = w % 2048 := by
    unfold keyOfBytes at h
    split_ifs at h
    cases h
    rw [BitVec.toNat_append, ← Nat.shiftLeft_add_eq_or_of_lt (BitVec.isLt _)]
    simp only [BitVec.extractLsb'_toNat, Nat.shiftRight_eq_div_pow, Nat.shiftLeft_eq, BitVec.toNat_ofNat]
    omega
  have hbit : w.testBit 10 = decide (1024 ≤ k.toNat) := by
    rw [Nat.testBit_eq_decide_div_mod_eq]
    exact decide_eq_decide.2 (by omega)
  refine ⟨?_, by rw [getLsbD_ten_eq, hbit]⟩
  have hsome : ∃ k', keyOf (w.testBit 10) (w % 256) (w / 256 % 4 + 1) = some k' :=
    ⟨_, if_pos ⟨by omega, by omega, by omega⟩⟩
  obtain ⟨k', hk'⟩ := hsome
  obtain ⟨-, -, -, hnum⟩ := keyOf_toNat hk'
  rw [hk', Option.some_inj]
  apply BitVec.eq_of_toNat_eq
  rw [hnum, hbit]
  by_cases hwrite : 1024 ≤ k.toNat
  · rw [decide_eq_true hwrite, Bool.toNat_true]
    omega
  · rw [decide_eq_false hwrite, Bool.toNat_false]
    omega

/-- A bus row's word, where it decodes, decodes as the access it stands for. -/
theorem decodeAccess_tableAccess {nbits w : Nat} {i : Instr} (hbits : nbits ≠ 32)
    (h : decodeBytes (tableBytes nbits w) = .ok i) : decodeAccess (tableAccess nbits w) = .ok i := by
  simp only [tableBytes, tableAccess, if_neg hbits] at h ⊢
  cases hk : keyOfBytes (BitVec.ofNat 8 w) (BitVec.ofNat 8 (w / 256)) with
  | none => split_ifs at h <;> simp [bytesOfWord, decodeBytes, hk] at h
  | some k =>
    obtain ⟨hkey, hbit⟩ := keyOf_of_keyOfBytes hk
    rw [← bytesOfKey_of_keyOfBytes hk] at h
    split_ifs at h ⊢ with hwrite
    · rw [decodeBytes_bytesOfKey_append (hbit.trans hwrite)] at h
      rw [hwrite] at hkey
      simp only [decodeAccess, hkey, h]
    · have hread := eq_false_of_ne_true hwrite
      rw [decodeBytes_bytesOfKey (hbit.trans hread)] at h
      rw [hread] at hkey
      simp only [decodeAccess, hkey, h]

/-- An opcode-table word that decodes is, as the access it stands for, its operation. -/
theorem performAccess_tableAccess {nbits w : Nat} {i : Instr} (h : decodeTableWord nbits w = some i)
    (s : State) : performAccess (tableAccess nbits w) s = exec i s := by
  have hbytes : decodeBytes (tableBytes nbits w) = .ok i := by
    unfold decodeTableWord at h
    cases hd : decodeBytes (tableBytes nbits w) with
    | error r => rw [hd] at h; cases h
    | ok j => rw [hd] at h; cases h; rfl
  by_cases hbits : nbits = 32
  · obtain ⟨haccess, hcommand, -⟩ := cmdWritePerformsItsCommand s (BitVec.ofNat 32 w)
    rw [tableBytes, if_pos hbits, decodeBytes_bytesOfWord] at hbytes
    rw [tableAccess, if_pos hbits, haccess]
    cases hd : decodeCommand (BitVec.ofNat 32 w) with
    | error r => rw [hd] at hbytes; cases hbytes
    | ok c =>
      rw [hd] at hbytes
      cases hbytes
      exact hcommand c hd
  · exact performAccess_of_ok (decodeAccess_tableAccess hbits hbytes) s

/-- A presented access finds no DISPATCH due (assumption 11). -/
theorem due_present (s : State) (a : BusAccess) : (s.present a).due = false := by
  simp only [State.due, State.present]
  cases s.en <;> simp

/-- Settles O38: the presented access is performed at once, and it is the word's operation. -/
theorem stepRunsPresentedTableWord : Obligations.StepRunsPresentedTableWord := by
  intro s nbits w i h
  have hstep := step_of_listed_access (s := s.withFetchWord nbits w) rfl (due_present s _)
  rw [hstep, performAccess_tableAccess h]

/-! ## The first match after reset -/

/-- A run of one more step. -/
theorem run_succ_of_next {k : Nat} {s t u : State} (hrun : Host.Core.run Sys2Proof.core k s = .next t)
    (hstep : step t = .next u) : Host.Core.run Sys2Proof.core (k + 1) s = .next u := by
  have hstep : Sys2Proof.core.step t = .next u := hstep
  induction k generalizing s with
  | zero =>
    cases hrun
    simp only [Host.Core.run, hstep]
  | succ k ih =>
    simp only [Host.Core.run] at hrun ⊢
    cases hs : Sys2Proof.core.step s with
    | next s' =>
      simp only [hs] at hrun ⊢
      exact ih hrun
    | fault r => simp only [hs] at hrun; cases hrun
    | refused r => simp only [hs] at hrun; cases hrun

/-- The state `k` ticks after reset, up to the first match (rule R231). -/
def State.afterTicks (p : Params) (k : Nat) : State :=
  { State.resetWith p with counter := BitVec.ofNat 16 k, pending := decide (k = p.set.heartbeatStep) }

/-- With nothing listed and EN = 0, the step is the TICK, and the match comes at HEARTBEAT_STEP. -/
theorem step_afterTicks {p : Params} {k : Nat} (hk : k < p.set.heartbeatStep) :
    step (State.afterTicks p k) = .next (State.afterTicks p (k + 1)) := by
  obtain ⟨-, -, -, -, -, -, -, -, hstep, -⟩ := legal_bounds p
  have hturn : (State.afterTicks p k).nextTurn = .tick := nextTurn_of_nil rfl
  have hmatch : (BitVec.ofNat 16 k + 1 == heartbeatStep p) = decide (k + 1 = p.set.heartbeatStep) := by
    rw [Bool.beq_eq_decide_eq]
    refine decide_eq_decide.2 ?_
    rw [← BitVec.toNat_inj, heartbeatStep_toNat, BitVec.toNat_add, BitVec.toNat_ofNat]
    show (k % 65536 + 1) % 65536 = p.set.heartbeatStep ↔ k + 1 = p.set.heartbeatStep
    omega
  have hpending : decide (k = p.set.heartbeatStep) = false := decide_eq_false (by omega)
  rw [step_of_tick hturn]
  simp only [State.tick, State.takeEvent, State.afterTicks, State.resetWith, State.due, hpending, hmatch,
    Bool.false_or, Bool.and_false, Bool.false_eq_true, if_false, BitVec.ofNat_add, List.tail_nil]
  rfl

/-- The run from reset, tick by tick (rule R231). -/
theorem run_resetWith {p : Params} {k : Nat} (hk : k ≤ p.set.heartbeatStep) :
    Host.Core.run Sys2Proof.core k (State.resetWith p) = .next (State.afterTicks p k) := by
  induction k with
  | zero =>
    obtain ⟨-, -, -, -, -, -, -, hpos, -⟩ := legal_bounds p
    have hpending : decide (0 = p.set.heartbeatStep) = false := decide_eq_false (by omega)
    simp only [Host.Core.run, State.afterTicks, hpending]
    rfl
  | succ k ih => exact run_succ_of_next (ih (by omega)) (step_afterTicks (by omega))

/-- Settles O3 with the state after `k` ticks. -/
theorem firstMatchAfterHeartbeatTicks : Obligations.FirstMatchAfterHeartbeatTicks := fun _ _ hk =>
  ⟨_, run_resetWith hk, rfl, rfl, rfl⟩

end Sys2Proof.Machine
end

section
/-! PROOF. All a step can do, with a host access by its effect: what the proofs about every step go through. -/

namespace Sys2Proof.Machine

/-- All a step that completes can do: it is a reset, a TICK, a DISPATCH, or a host access that writes CMD, CTRL, STATUS
or COMPARE at its turn; or it reaches nothing but ERR_BUS, the answer, the list and the tick input. -/
inductive Transition (s : State) : State → Prop where
  | reset (hturn : s.nextTurn = .reset) : Transition s s.takeEvent.applyReset
  | tick (hturn : s.nextTurn = .tick) : Transition s s.takeEvent.tick
  | dispatch (hturn : s.nextTurn = .dispatch) : Transition s s.dispatch
  | command (w : Word) (hturn : WritesCommand s w) : Transition s (s.takeEvent.executeCommand w).answerWrite
  | control (v : Word) (hturn : s.nextTurn = .access (.write 0x04 4 v)) :
      Transition s (s.takeEvent.setCtrl v).answerWrite
  | status (v : Word) (hturn : s.nextTurn = .access (.write 0x08 4 v)) :
      Transition s (s.takeEvent.clearStatus v).answerWrite
  | compare (v : Word) (hturn : s.nextTurn = .access (.write 0x14 4 v)) :
      Transition s (s.takeEvent.setCompare v).answerWrite
  | quiet (errBus : Bool) (response : Option Response) (events : List Event) (ticking : Bool)
      (hbus : s.errBus = true → errBus = true) :
      Transition s { s with errBus := errBus, response := response, events := events, ticking := ticking }

/-- Every step that completes is one of the transitions. -/
theorem transition_of_step {s t : State} (h : step s = .next t) : Transition s t := by
  obtain ⟨hturn, rfl⟩ | ⟨hturn, rfl⟩ | ⟨hturn, rfl⟩ | ⟨hturn, rfl⟩ | ⟨a, hturn, ha⟩ := step_cases h
  · exact .reset hturn
  · exact .tick hturn
  · exact .dispatch hturn
  · exact .quiet s.errBus s.response s.events.tail false id
  · obtain ⟨w, rfl, e⟩ | ⟨v, rfl, e⟩ | ⟨v, rfl, e⟩ | ⟨v, rfl, e⟩ | e | ⟨r, e⟩ :=
      performAccess_cases a s.takeEvent <;> rw [e] at ha <;> cases ha
    · exact .command w hturn
    · exact .control v hturn
    · exact .status v hturn
    · exact .compare v hturn
    · exact .quiet true (some (errorResponse a)) s.events.tail s.ticking fun _ => rfl
    · exact .quiet s.errBus (some r) s.events.tail s.ticking id

/-- All a step can do to a channel. -/
theorem channel_of_step {s t : State} (h : step s = .next t) (i : ChannelIx) :
    (s.nextTurn = .reset ∧ t.channel i = Channel.atReset s.params) ∨
    (s.nextTurn = .dispatch ∧ t.channel i = (s.channel i).drain s.params s.elapsed) ∨
    (WritesCommand s 0x10000000#32 ∧ t.channel i = (s.channel i).deactivate s.params) ∨
    (∃ w, WritesCommand s w ∧ SetsChannel w i ∧
      ∃ p, p ≠ 0xFFFF#16 ∧ t.channel i = { s.channel i with period := p, dir := true }) ∨
    t.channel i = s.channel i := by
  cases transition_of_step h with
  | reset hturn => exact .inl ⟨hturn, channel_resetWith s.params i⟩
  | dispatch hturn => exact .inr (.inl ⟨hturn, channel_dispatch s i⟩)
  | command w hturn =>
    obtain e | ⟨hd, e⟩ | ⟨hsets, hset⟩ := channel_executeCommand_cases s.takeEvent w i
    · exact .inr (.inr (.inr (.inr e)))
    · have hinit : w = 0x10000000#32 := (encodeCommand_of_decodeCommand hd).symm
      exact .inr (.inr (.inl ⟨hinit ▸ hturn, e⟩))
    · exact .inr (.inr (.inr (.inl ⟨w, hturn, hsets, hset⟩)))
  | tick | control | status | compare | quiet => exact .inr (.inr (.inr (.inr rfl)))

/-! ## Who writes what -/

/-- Settles O4: of all transitions a command alone has a frame to look up, and no other reaches the parameters. -/
theorem noStepChangesParameters : Obligations.NoStepChangesParameters := by
  intro s t h
  cases transition_of_step h with
  | command w => rw [State.answerWrite_params, executeCommand_params, State.takeEvent_params]
  | reset | tick | dispatch | control | status | compare | quiet => rfl

/-- Settles O46: a TICK adds one, a reset clears, and nothing else reaches COUNTER. -/
theorem onlyTickAndResetWriteCounter : Obligations.OnlyTickAndResetWriteCounter := by
  intro s t h
  cases transition_of_step h with
  | reset hturn => exact .inr (.inr ⟨hturn, rfl⟩)
  | tick hturn => exact .inr (.inl ⟨hturn, ticking_of_tick hturn, rfl⟩)
  | command w => exact .inl (by simp)
  | dispatch | control | status | compare | quiet => exact .inl rfl

/-- Settles O47, by all a step can do to the channel. -/
theorem writersOfCountdownAndPeriod : Obligations.WritersOfCountdownAndPeriod := by
  intro s t i h
  obtain ⟨hturn, -⟩ | ⟨hturn, e⟩ | ⟨hturn, -⟩ | ⟨w, hturn, hsets, p, -, e⟩ | e := channel_of_step h i
  · exact ⟨fun _ => .inr (.inl hturn), fun _ => .inl hturn⟩
  · exact ⟨fun _ => .inl hturn, fun hne => absurd (by rw [e, drain_period]) hne⟩
  · exact ⟨fun _ => .inr (.inr hturn), fun _ => .inr (.inl hturn)⟩
  · exact ⟨fun hne => absurd (by rw [e]) hne, fun _ => .inr (.inr ⟨w, hturn, hsets⟩)⟩
  · exact ⟨fun hne => absurd (by rw [e]) hne, fun hne => absurd (by rw [e]) hne⟩

/-- Settles O48: of all a step can do to the channel, a DISPATCH that finds it inactive leaves it. -/
theorem levelChangesOnlyOnActiveInDispatch : Obligations.LevelChangesOnlyOnActiveInDispatch := by
  intro s t i h hne
  obtain ⟨hturn, -⟩ | ⟨hturn, e⟩ | ⟨-, e⟩ | ⟨w, -, -, p, -, e⟩ | e := channel_of_step h i
  · exact .inl hturn
  · refine .inr ⟨hturn, fun hinactive => hne ?_⟩
    rw [e, drain_of_inactive _ _ hinactive]
  · exact absurd (by rw [e]; rfl) hne
  · exact absurd (by rw [e]) hne
  · exact absurd (by rw [e]) hne

/-- Settles O50: a DISPATCH and a reset write both, a COMPARE write the one. -/
theorem writersOfCompareAndElapsed : Obligations.WritersOfCompareAndElapsed := by
  intro s t h
  cases transition_of_step h with
  | reset hturn => exact ⟨fun _ => .inr (.inl hturn), fun _ => .inr hturn⟩
  | dispatch hturn => exact ⟨fun _ => .inl hturn, fun _ => .inl hturn⟩
  | compare v hturn => exact ⟨fun _ => .inr (.inr ⟨v, hturn, rfl⟩), fun hne => absurd rfl hne⟩
  | command w => exact ⟨fun hne => absurd (by simp) hne, fun hne => absurd (by simp) hne⟩
  | tick | control | status | quiet => exact ⟨fun hne => absurd rfl hne, fun hne => absurd rfl hne⟩

/-- A command never clears an error bit (rules R31, R201). -/
theorem executeCommand_keeps_errors (s : State) (w : Word) :
    (s.errIllegal = true → (s.executeCommand w).errIllegal = true) ∧
    (s.errChannel = true → (s.executeCommand w).errChannel = true) ∧
    (s.errPeriod = true → (s.executeCommand w).errPeriod = true) := by
  obtain e | e | e | ⟨-, e⟩ | ⟨-, e⟩ | ⟨_, _, _, -, -, -, -, e⟩ | ⟨_, _, _, -, -, -, -, e⟩ :=
    executeCommand_cases s w <;> rw [e]
  · exact ⟨fun _ => rfl, id, id⟩
  · exact ⟨id, fun _ => rfl, id⟩
  · exact ⟨id, id, fun _ => rfl⟩
  all_goals exact ⟨id, id, id⟩

/-- What the mask of rule R66 clears was written with 1. -/
theorem eq_true_of_cleared {bit clear : Bool} (hbit : bit = true) (h : (bit && !clear) = false) :
    clear = true := by
  simpa [hbit] using h

/-- A bit that is kept is not cleared. -/
theorem not_cleared {old new : Bool} {P : Prop} (hkept : old = true → new = true) :
    old = true → new = false → P := fun hold hnew => absurd ((hkept hold).symm.trans hnew) Bool.noConfusion

/-- Settles O51: a STATUS write clears the bits it has a 1 for, and every other step but a reset keeps them. -/
theorem errorBitsAreSticky : Obligations.ErrorBitsAreSticky := by
  intro s t h hreset
  cases transition_of_step h with
  | reset hturn => exact absurd hturn hreset
  | command w =>
    obtain ⟨hillegal, hchannel, hperiod⟩ := executeCommand_keeps_errors s.takeEvent w
    have hbus : s.errBus = true → (s.takeEvent.executeCommand w).errBus = true := by simp
    exact ⟨not_cleared hillegal, not_cleared hchannel, not_cleared hperiod, not_cleared hbus⟩
  | status v hturn =>
    exact ⟨fun hbit h => ⟨v, hturn, eq_true_of_cleared hbit h⟩,
      fun hbit h => ⟨v, hturn, eq_true_of_cleared hbit h⟩,
      fun hbit h => ⟨v, hturn, eq_true_of_cleared hbit h⟩,
      fun hbit h => ⟨v, hturn, eq_true_of_cleared hbit h⟩⟩
  | quiet _ _ _ _ hbus => exact ⟨not_cleared id, not_cleared id, not_cleared id, not_cleared hbus⟩
  | tick | dispatch | control | compare =>
    exact ⟨not_cleared id, not_cleared id, not_cleared id, not_cleared id⟩

/-- All a step can do to `diag`: a reset clears it, and a DISPATCH toggles it, with the diagnostic present and
enabled. -/
theorem diag_of_step {s t : State} (h : step s = .next t) :
    t.diag = s.diag ∨ (s.nextTurn = .reset ∧ t.diag = false) ∨
    (s.nextTurn = .dispatch ∧ s.diagEn = true ∧ s.params.set.diagPresent = true) := by
  cases transition_of_step h with
  | reset hturn => exact .inr (.inl ⟨hturn, rfl⟩)
  | dispatch hturn =>
    rw [State.dispatch_diag]
    split_ifs with htoggles
    · simp only [diagToggles, Bool.and_eq_true] at htoggles
      obtain ⟨⟨hpresent, henabled⟩, -⟩ := htoggles
      exact .inr (.inr ⟨hturn, henabled, hpresent⟩)
    · exact .inl rfl
  | command w => exact .inl (by simp)
  | tick | control | status | compare | quiet => exact .inl rfl

/-- Settles O52, by all a step can do to `diag`. -/
theorem diagChangesOnlyWhenEnabled : Obligations.DiagChangesOnlyWhenEnabled := by
  intro s t h hne
  obtain e | ⟨hturn, -⟩ | ⟨hturn, henabled, -⟩ := diag_of_step h
  · exact absurd e hne
  · exact .inl hturn
  · exact .inr ⟨hturn, henabled⟩

/-- Settles O56: without the diagnostic no step toggles `diag`. -/
theorem stepKeepsAbsentDiagnosticLow : Obligations.StepKeepsAbsentDiagnosticLow := by
  intro s t hs h habsent
  rw [noStepChangesParameters s t h] at habsent
  obtain e | ⟨-, e⟩ | ⟨-, -, hpresent⟩ := diag_of_step h
  · rw [e, hs habsent]
  · exact e
  · rw [habsent] at hpresent
    cases hpresent

/-- A command leaves ERRCMD, or is rejected and writes its word there (rules R32, R201). -/
theorem errcmd_executeCommand (s : State) (w : Word) :
    (s.executeCommand w).errcmd = s.errcmd ∨
    ((s.executeCommand w).errcmd = w ∧ ((s.executeCommand w).errIllegal = true ∨
      (s.executeCommand w).errChannel = true ∨ (s.executeCommand w).errPeriod = true)) := by
  obtain e | e | e | ⟨-, e⟩ | ⟨-, e⟩ | ⟨_, _, _, -, -, -, -, e⟩ | ⟨_, _, _, -, -, -, -, e⟩ :=
    executeCommand_cases s w <;> rw [e]
  · exact .inr ⟨rfl, .inl rfl⟩
  · exact .inr ⟨rfl, .inr (.inl rfl)⟩
  · exact .inr ⟨rfl, .inr (.inr rfl)⟩
  all_goals exact .inl rfl

/-- Settles O60: a CTRL write writes the three fields, a rejected command ERRCMD, and no other step but a reset either. -/
theorem writersOfControlAndErrcmd : Obligations.WritersOfControlAndErrcmd := by
  intro s t h hreset
  cases transition_of_step h with
  | reset hturn => exact absurd hturn hreset
  | command w hturn =>
    refine ⟨by simp, fun hne => ?_⟩
    obtain e | ⟨e, herror⟩ := errcmd_executeCommand s.takeEvent w
    · exact absurd e hne
    · rw [State.answerWrite_errcmd, e]
      exact ⟨hturn, herror⟩
  | control v hturn => exact ⟨fun _ => ⟨v, hturn, rfl, rfl, rfl⟩, fun hne => absurd rfl hne⟩
  | tick | dispatch | status | compare | quiet => exact ⟨by simp, fun hne => absurd rfl hne⟩

/-! ## Outputs -/

theorem servoOut_of_dir {s : State} {i : ChannelIx} (h : (s.channel i).dir = true) :
    s.servoOut i = .driven (s.channel i).level := if_pos h

theorem servoOut_eq_undriven_iff {s : State} {i : ChannelIx} :
    s.servoOut i = .undriven ↔ (s.channel i).dir = false := by
  unfold State.servoOut
  split_ifs with hdir <;> simp [hdir]

/-- An accepted SET, as a CMD write, arms its channel (rules R122, R128). -/
theorem executeCommand_of_accepted {s : State} {w : Word} {ch : BitVec 8} {i : ChannelIx}
    (hch : ch.toNat = i.val) (hi : i.val < s.params.set.nCh)
    (h : (∃ angle, decodeCommand w = .ok (.setAngle ch angle) ∧
        pulseTicks s.params s.clamp angle < 0xFFFF) ∨
      (∃ ticks, decodeCommand w = .ok (.setPeriod ch ticks) ∧ ticks ≠ 0xFFFF#16)) :
    ∃ p, s.executeCommand w = s.arm i p := by
  obtain ⟨angle, hd, hp⟩ | ⟨ticks, hd, hp⟩ := h
  · simp only [State.executeCommand, hd]
    exact ⟨_, opSetAngle_of_accepted hch hi hp w⟩
  · simp only [State.executeCommand, hd]
    exact ⟨_, opSetPeriod_of_accepted hch hi hp w⟩

/-- Settles O49: an accepted SET arms the channel, and of all a step can do to a channel only a reset makes it an input
and only a SET of it an output. -/
theorem outputsAreDrivenFromFirstSet : Obligations.OutputsAreDrivenFromFirstSet := by
  refine fun s t i h => ⟨fun w ch hw hch hi haccepted => ?_, fun hdriven hreset => ?_, fun hin hout => ?_⟩
  · have hstep : step s = .next (s.takeEvent.executeCommand w).answerWrite := by
      rw [step_of_access hw, performAccess_of_ok (i := .wrCmd w) rfl, exec_wrCmd]
    obtain ⟨p, hp⟩ := executeCommand_of_accepted (s := s.takeEvent) hch hi haccepted
    rw [hstep, hp] at h
    cases h
    have harmed : (s.takeEvent.arm i p).answerWrite.channel i =
        { s.channel i with period := p, dir := true } := by
      rw [channel_answerWrite, channel_arm, if_pos rfl]
      rfl
    rw [servoOut_of_dir (by rw [harmed]), harmed]
  · have hdir : (s.channel i).dir = true := by
      simpa [servoOut_eq_undriven_iff] using hdriven
    apply servoOut_of_dir
    obtain ⟨hturn, -⟩ | ⟨-, e⟩ | ⟨-, e⟩ | ⟨w, -, -, p, -, e⟩ | e := channel_of_step h i
    · exact absurd hturn hreset
    · rw [e, drain_dir, hdir]
    · rw [e]; exact hdir
    · rw [e]
    · rw [e, hdir]
  · rw [servoOut_eq_undriven_iff] at hin
    rw [Ne, servoOut_eq_undriven_iff] at hout
    obtain ⟨-, e⟩ | ⟨-, e⟩ | ⟨-, e⟩ | ⟨w, hturn, hsets, -⟩ | e := channel_of_step h i
    · exact absurd (by rw [e]; rfl) hout
    · exact absurd (by rw [e, drain_dir, hin]) hout
    · exact absurd (by rw [e]; exact hin) hout
    · exact ⟨w, hturn, hsets⟩
    · exact absurd (by rw [e, hin]) hout

/-! ## The latency bound -/

/-- Settles O55: a TICK counts only below the bound, where a DISPATCH is due and stays due; every other step keeps
`pend_age` with what it counts, or clears it. -/
theorem stepKeepsLatencyWithinBound : Obligations.StepKeepsLatencyWithinBound := by
  rintro s t ⟨hbound, hidle⟩ h
  cases transition_of_step h with
  | reset => exact ⟨Nat.zero_le _, fun _ => rfl⟩
  | tick hturn =>
    have hdue : s.takeEvent.due = s.due := rfl
    unfold LatencyWithinBound
    rw [State.tick_pendAge, hdue]
    cases hd : s.due with
    | true =>
      obtain ⟨hen, hpending⟩ := (due_iff s).1 hd
      have hlt : s.pendAge < s.params.set.dispatchLatencyMax := by simpa [hd] using tick_turn hturn
      refine ⟨?_, by simp [hen, hpending]⟩
      rw [if_pos rfl, State.takeEvent_pendAge, State.takeEvent_params, State.tick_params,
        State.takeEvent_params]
      omega
    | false => exact ⟨hbound, fun _ => hidle hd⟩
  | dispatch => exact ⟨Nat.zero_le _, fun _ => rfl⟩
  | command w =>
    unfold LatencyWithinBound
    simpa using And.intro hbound hidle
  | control => exact ⟨Nat.zero_le _, fun _ => rfl⟩
  | status v hturn =>
    obtain ⟨hdue, -⟩ := access_turn hturn
    have hnone : s.pendAge = 0 := hidle hdue
    have hage : (s.takeEvent.clearStatus v).answerWrite.pendAge = 0 := by
      rw [State.answerWrite_pendAge, State.clearStatus_pendAge, State.takeEvent_pendAge, hnone, ite_self]
    exact ⟨by rw [hage]; exact Nat.zero_le _, fun _ => hage⟩
  | compare | quiet => exact ⟨hbound, hidle⟩

end Sys2Proof.Machine
end

section
/-! PROOF. DISPATCH (rules R148 to R158): what it does to each channel, and how it programs the next match from the least
active countdown. -/

namespace Sys2Proof.Machine

/-- The step of a DISPATCH's turn is the DISPATCH. -/
theorem eq_dispatch_of_step {s t : State} (hturn : s.nextTurn = .dispatch) (h : step s = .next t) :
    t = s.dispatch := by
  rw [step_of_dispatch hturn] at h
  cases h
  rfl

/-- Settles O39: the step is the DISPATCH, which drains each channel. -/
theorem dispatchDrainsAndToggles : Obligations.DispatchDrainsAndToggles := by
  refine fun s hturn => ⟨s.dispatch, step_of_dispatch hturn, rfl, fun i => ?_⟩
  rw [channel_dispatch]
  refine ⟨drain_of_inactive _ _, fun hactive => ⟨fun hlow => ?_, fun hhigh => ?_⟩⟩
  · rw [drain_of_active _ _ hactive, if_pos hlow]
    rfl
  · rw [drain_of_active _ _ hactive, if_neg (Nat.not_lt.2 hhigh)]

/-! ## The least active countdown -/

theorem nextDelay_le_idle (cs : Channels) : (nextDelay cs).toNat ≤ 0x10000 :=
  (foldl_minDelay cs.toList Config.idleSentinel).1

/-- Rules R34, R152: the delay is the least active countdown, and no sentinel, where there is one. -/
theorem nextDelay_of_isLeastActive {s : State} {m : Nat} (h : IsLeastActive s m) :
    (nextDelay s.chans).toNat = m ∧ nextDelay s.chans ≠ Config.idleSentinel := by
  obtain ⟨⟨i, hi, hm⟩, hleast⟩ := h
  obtain ⟨⟨j, hj, hattained⟩, hle⟩ := nextDelay_active (cs := s.chans) hi
  have hupper : (nextDelay s.chans).toNat ≤ m := hm ▸ hle i hi
  have hlower : m ≤ (nextDelay s.chans).toNat := hattained ▸ hleast j hj
  refine ⟨Nat.le_antisymm hupper hlower, fun hidle => ?_⟩
  have hsentinel : (nextDelay s.chans).toNat = 0x10000 := congrArg BitVec.toNat hidle
  have hfits := (s.channel i).countdown.isLt
  omega

/-- Rules R34, R152: a delay that is no sentinel is the least active countdown. -/
theorem isLeastActive_nextDelay {s : State} (h : nextDelay s.chans ≠ Config.idleSentinel) :
    IsLeastActive s (nextDelay s.chans).toNat := by
  have hsome : ∃ i : ChannelIx, (s.channel i).period ≠ 0xFFFF#16 := by
    by_contra hnone
    exact h (nextDelay_idle fun i => not_not.1 fun hi => hnone ⟨i, hi⟩)
  obtain ⟨i, hi⟩ := hsome
  obtain ⟨⟨j, hj, hattained⟩, hle⟩ := nextDelay_active (cs := s.chans) hi
  exact ⟨⟨j, hj, hattained.symm⟩, hle⟩

/-- The delay depends only on which active channels there are (rule R158). -/
theorem nextDelay_le_of_subset {cs ds : Channels} (h : ∀ i : ChannelIx, ∃ j : ChannelIx, ds[j] = cs[i]) :
    (nextDelay ds).toNat ≤ (nextDelay cs).toNat := by
  by_cases hidle : ∀ i : ChannelIx, cs[i].period = 0xFFFF#16
  · rw [nextDelay_idle hidle]
    exact nextDelay_le_idle ds
  · obtain ⟨i, hi⟩ := not_forall.1 hidle
    obtain ⟨⟨k, hk, hattained⟩, -⟩ := nextDelay_active hi
    obtain ⟨j, hj⟩ := h k
    obtain ⟨-, hle⟩ := nextDelay_active (cs := ds) (i := j) (by rwa [hj])
    rw [hattained, ← hj]
    exact hle j (by rwa [hj])

/-! ## The next match -/

/-- Rule R155, whole: the COMPARE advance and the next ELAPSED that a delay gives, and where it does. -/
theorem advance_cases (p : Params) (nd : Delay) :
    (nd = Config.idleSentinel ∧ compareAdvance p nd = heartbeatStep p ∧ nextElapsed p nd = heartbeatStep p) ∨
    (nd ≠ Config.idleSentinel ∧ p.set.coalesceWindow ≤ nd.toNat ∧ compareAdvance p nd = coalesceWindow p ∧
      nextElapsed p nd = coalesceWindow p) ∨
    (nd ≠ Config.idleSentinel ∧ nd.toNat < p.set.coalesceWindow ∧ nd.toNat < p.set.nearMissEps ∧
      compareAdvance p nd = nd.setWidth 16 + nearMissEps p ∧ nextElapsed p nd = nd.setWidth 16) ∨
    (nd ≠ Config.idleSentinel ∧ nd.toNat < p.set.coalesceWindow ∧ p.set.nearMissEps ≤ nd.toNat ∧
      compareAdvance p nd = nd.setWidth 16 ∧ nextElapsed p nd = nd.setWidth 16) := by
  unfold compareAdvance nextElapsed
  by_cases hidle : nd = Config.idleSentinel
  · exact .inl ⟨hidle, if_pos hidle, if_pos hidle⟩
  · rw [if_neg hidle, if_neg hidle]
    by_cases hwindow : nd.toNat < p.set.coalesceWindow
    · rw [if_pos hwindow, if_pos hwindow]
      by_cases hnear : nd.toNat < p.set.nearMissEps
      · exact .inr (.inr (.inl ⟨hidle, hwindow, hnear, if_pos hnear, rfl⟩))
      · exact .inr (.inr (.inr ⟨hidle, hwindow, Nat.not_lt.1 hnear, if_neg hnear, rfl⟩))
    · exact .inr (.inl ⟨hidle, Nat.not_lt.1 hwindow, if_neg hwindow, if_neg hwindow⟩)

/-- A delay below the coalescing window loses nothing as a tick count. -/
theorem toNat_setWidth_of_lt_window {p : Params} {nd : Delay} (h : nd.toNat < p.set.coalesceWindow) :
    (nd.setWidth 16).toNat = nd.toNat := by
  obtain ⟨-, -, -, -, -, -, hwindow, -⟩ := legal_bounds p
  rw [BitVec.toNat_setWidth]
  exact Nat.mod_eq_of_lt (by omega)

/-- Settles O40: the least countdown is the delay, and each clause one case of rule R155. -/
theorem dispatchReprogramsFromLeastCountdown : Obligations.DispatchReprogramsFromLeastCountdown := by
  intro s t m hturn hstep hleast
  obtain rfl := eq_dispatch_of_step hturn hstep
  obtain ⟨hm, hactive⟩ := nextDelay_of_isLeastActive hleast
  rw [State.dispatch_chans] at hm hactive
  rw [State.dispatch_elapsed, State.dispatch_compare]
  obtain ⟨hidle, -⟩ | ⟨-, hge, hadvance, helapsed⟩ | ⟨-, hlt, hnear, hadvance, helapsed⟩ |
      ⟨-, hlt, hfar, hadvance, helapsed⟩ := advance_cases s.params (nextDelay s.drainedChannels)
  · exact absurd hidle hactive
  · rw [hadvance, helapsed]
    exact ⟨fun _ => ⟨rfl, rfl⟩, fun h => absurd h (by omega)⟩
  · rw [hadvance, helapsed, ← BitVec.ofNat_toNat, hm]
    refine ⟨fun h => absurd h (by omega), fun _ => ⟨rfl, ?_⟩⟩
    rw [if_pos (hm ▸ hnear), BitVec.ofNat_add]
    rfl
  · rw [hadvance, helapsed, ← BitVec.ofNat_toNat, hm]
    refine ⟨fun h => absurd h (by omega), fun _ => ⟨rfl, ?_⟩⟩
    rw [if_neg (by omega)]

/-- Settles O41: the least countdown is the delay that step 4 tests (rule R154). -/
theorem diagnosticTogglesOnNearMiss : Obligations.DiagnosticTogglesOnNearMiss := by
  intro s t m hturn hstep hleast
  obtain rfl := eq_dispatch_of_step hturn hstep
  obtain ⟨hm, -⟩ := nextDelay_of_isLeastActive hleast
  rw [State.dispatch_chans] at hm
  have htoggles : diagToggles s (nextDelay s.drainedChannels) = true ↔
      s.params.set.diagPresent = true ∧ s.diagEn = true ∧ m < s.params.set.nearMissEps := by
    simp only [diagToggles, hm, Bool.and_eq_true, decide_eq_true_eq, and_assoc]
  simp only [State.dispatch_diag, htoggles]

/-- The advance of a DISPATCH, from the COMPARE it leaves. -/
theorem dispatch_compare_sub (s : State) :
    s.dispatch.compare - s.compare = compareAdvance s.params (nextDelay s.drainedChannels) := by
  rw [State.dispatch_compare, BitVec.add_comm, BitVec.add_sub_cancel]

/-- Rules R162, R165: with an epsilon whose sum cannot wrap, the advance is one of the three steps or more
(assumption 16). -/
theorem min_le_compareAdvance {p : Params} (heps : p.set.nearMissEps ≤ 0x8000) (nd : Delay) :
    min p.set.nearMissEps (min p.set.coalesceWindow p.set.heartbeatStep) ≤ (compareAdvance p nd).toNat := by
  obtain ⟨-, hadvance, -⟩ | ⟨-, -, hadvance, -⟩ | ⟨-, hlt, hnear, hadvance, -⟩ | ⟨-, hlt, hfar, hadvance, -⟩ :=
    advance_cases p nd <;> rw [hadvance]
  · rw [heartbeatStep_toNat]
    omega
  · rw [coalesceWindow_toNat]
    omega
  · rw [BitVec.toNat_add, toNat_setWidth_of_lt_window hlt, nearMissEps_toNat]
    omega
  · rw [toNat_setWidth_of_lt_window hlt]
    omega

/-- Settles O44: what a DISPATCH adds to COMPARE is the advance of rule R155, which has that lower bound. -/
theorem compareAdvanceHasLowerBound : Obligations.CompareAdvanceHasLowerBound := by
  intro s t heps hturn hstep
  obtain rfl := eq_dispatch_of_step hturn hstep
  rw [dispatch_compare_sub]
  exact min_le_compareAdvance heps _

/-- Settles O45: of rule R155's four cases only the near miss adds to the next ELAPSED. -/
theorem elapsedIsTheAdvanceButForNearMiss : Obligations.ElapsedIsTheAdvanceButForNearMiss := by
  intro s t hturn hstep
  obtain rfl := eq_dispatch_of_step hturn hstep
  rw [dispatch_compare_sub, State.dispatch_elapsed]
  obtain ⟨-, hadvance, helapsed⟩ | ⟨-, -, hadvance, helapsed⟩ | ⟨hactive, hlt, hnear, hadvance, helapsed⟩ |
      ⟨-, -, -, hadvance, helapsed⟩ := advance_cases s.params (nextDelay s.drainedChannels)
  case inr.inr.inl =>
    exact .inr ⟨_, isLeastActive_nextDelay (s := s.dispatch) hactive, hnear, hlt, by
      rw [hadvance, helapsed]; rfl⟩
  all_goals exact .inl (hadvance.trans helapsed.symm)

/-! ## The order of the channels -/

/-- The same channels in another order have the same delay (rule R158). -/
theorem nextDelay_of_permuted {cs ds : Channels} (order : Equiv.Perm ChannelIx)
    (h : ∀ i : ChannelIx, ds[i] = cs[order i]) : nextDelay ds = nextDelay cs := by
  apply BitVec.eq_of_toNat_eq
  refine Nat.le_antisymm (nextDelay_le_of_subset fun i => ⟨order.symm i, ?_⟩)
    (nextDelay_le_of_subset fun i => ⟨order i, (h i).symm⟩)
  simp only [h, Equiv.apply_symm_apply]

/-- Settles O43: each channel is drained by itself, and the delay is the same, so the rest of the DISPATCH is. -/
theorem channelOrderIsUnobservable : Obligations.ChannelOrderIsUnobservable := by
  intro s t cs order hturn hstep hcs
  obtain rfl := eq_dispatch_of_step hturn hstep
  have hchannel (i : ChannelIx) :
      State.channel { s with chans := cs } i = s.channel (order i) := hcs i
  have hdrained (i : ChannelIx) : (State.dispatch { s with chans := cs }).channel i =
      s.dispatch.channel (order i) := by
    rw [channel_dispatch, channel_dispatch, hchannel]
  have hdelay : nextDelay (State.drainedChannels { s with chans := cs }) = nextDelay s.drainedChannels :=
    nextDelay_of_permuted order hdrained
  refine ⟨_, step_of_dispatch (s := { s with chans := cs }) hturn, ?_, hdrained⟩
  simp only [State.dispatch, hdelay]
  rfl

end Sys2Proof.Machine
end

section
/-! PROOF. No countdown wraps (rule R160): every active countdown covers the ELAPSED of the next DISPATCH. -/

namespace Sys2Proof.Machine

/-- The three kinds of ELAPSED a DISPATCH writes (rule R155), two of them bounded by the coalescing window. -/
theorem nextElapsed_bound (p : Params) (nd : Delay) :
    nextElapsed p nd = heartbeatStep p ∨ (nextElapsed p nd).toNat ≤ p.set.coalesceWindow := by
  obtain ⟨-, -, helapsed⟩ | ⟨-, -, -, helapsed⟩ | ⟨-, hlt, -, -, helapsed⟩ | ⟨-, hlt, -, -, helapsed⟩ :=
    advance_cases p nd <;> rw [helapsed]
  · exact .inl rfl
  · exact .inr (by rw [coalesceWindow_toNat])
  · exact .inr (by rw [toNat_setWidth_of_lt_window hlt]; omega)
  · exact .inr (by rw [toNat_setWidth_of_lt_window hlt]; omega)

/-- Where a channel is active, the next ELAPSED is at most the least countdown (rule R155). -/
theorem nextElapsed_le_delay {p : Params} {nd : Delay} (h : nd ≠ Config.idleSentinel) :
    (nextElapsed p nd).toNat ≤ nd.toNat := by
  obtain ⟨hidle, -⟩ | ⟨-, hge, -, helapsed⟩ | ⟨-, hlt, -, -, helapsed⟩ | ⟨-, hlt, -, -, helapsed⟩ :=
    advance_cases p nd
  · exact absurd hidle h
  · rwa [helapsed, coalesceWindow_toNat]
  · rw [helapsed, toNat_setWidth_of_lt_window hlt]
  · rw [helapsed, toNat_setWidth_of_lt_window hlt]

/-- After reset no channel is active. -/
theorem countdownsCoverElapsed_resetWith (p : Params) : CountdownsCoverElapsed (State.resetWith p) := by
  refine ⟨.inl rfl, fun i => ?_⟩
  rw [channel_resetWith]
  exact ⟨fun _ => rfl, fun hactive => absurd rfl hactive⟩

/-- A DISPATCH leaves the inactive channels, and its next ELAPSED is covered by the least active countdown. -/
theorem countdownsCoverElapsed_dispatch {s : State} (h : CountdownsCoverElapsed s) :
    CountdownsCoverElapsed s.dispatch := by
  obtain ⟨-, hchannels⟩ := h
  refine ⟨nextElapsed_bound s.params _, fun i => ⟨fun hinactive => ?_, fun hactive => ?_⟩⟩
  · rw [channel_dispatch, drain_period] at hinactive
    rw [channel_dispatch, drain_of_inactive _ _ hinactive]
    exact (hchannels i).1 hinactive
  · obtain ⟨⟨j, -, hattained⟩, hle⟩ := nextDelay_active (cs := s.drainedChannels) hactive
    have hdelay : nextDelay s.drainedChannels ≠ Config.idleSentinel := by
      intro hidle
      have hsentinel : (nextDelay s.drainedChannels).toNat = 0x10000 := congrArg BitVec.toNat hidle
      have hfits := (s.drainedChannels[j]).countdown.isLt
      omega
    exact Nat.le_trans (nextElapsed_le_delay hdelay) (hle i hactive)

/-- A command leaves a channel its countdown, which covers ELAPSED where the channel was inactive too, or gives it
REFRESH_TICKS and deactivates it. -/
theorem countdownsCoverElapsed_executeCommand {s : State} (hparams : RefreshCoversSteps s.params)
    (h : CountdownsCoverElapsed s) (w : Word) : CountdownsCoverElapsed (s.executeCommand w) := by
  obtain ⟨helapsed, hchannels⟩ := h
  unfold CountdownsCoverElapsed
  rw [executeCommand_elapsed, executeCommand_params]
  refine ⟨helapsed, fun i => ?_⟩
  obtain ⟨hidle, hactive⟩ := hchannels i
  obtain e | ⟨-, e⟩ | ⟨-, p, hp, e⟩ := channel_executeCommand_cases s w i <;> rw [e]
  · exact ⟨hidle, hactive⟩
  · exact ⟨fun _ => rfl, fun hne => absurd rfl hne⟩
  · refine ⟨fun hinactive => absurd hinactive hp, fun _ => ?_⟩
    by_cases hwas : (s.channel i).period = 0xFFFF#16
    · obtain ⟨hheartbeat, hwindow⟩ := hparams
      show s.elapsed.toNat ≤ (s.channel i).countdown.toNat
      rw [hidle hwas, refreshTicks_toNat]
      obtain e | hle := helapsed
      · rwa [e, heartbeatStep_toNat]
      · exact Nat.le_trans hle hwindow
    · exact hactive hwas

/-- Settles O53: a reset, a DISPATCH and a command keep it, and nothing else reaches what it speaks of. -/
theorem stepKeepsCountdownsCoveringElapsed : Obligations.StepKeepsCountdownsCoveringElapsed := by
  intro s t hparams hs h
  cases transition_of_step h with
  | reset => exact countdownsCoverElapsed_resetWith s.params
  | dispatch => exact countdownsCoverElapsed_dispatch hs
  | command w => exact countdownsCoverElapsed_executeCommand (s := s.takeEvent) hparams hs w
  | tick | control | status | compare | quiet => exact hs

/-- Settles O54: after reset no channel is active, and `pend_age` and `diag` are 0. -/
theorem resetMeetsTheInvariants : Obligations.ResetMeetsTheInvariants := fun p =>
  ⟨fun _ => countdownsCoverElapsed_resetWith p, ⟨Nat.zero_le _, fun _ => rfl⟩, fun _ => rfl⟩

end Sys2Proof.Machine
end

section
/-! PROOF. No match is missed (rule R162): the machine stays on schedule. -/

namespace Sys2Proof.Machine

/-- The advance a DISPATCH programs is scheduled (rules R155, R163). -/
theorem compareAdvance_le_scheduledAdvance (s : State) :
    (compareAdvance s.params (nextDelay s.drainedChannels)).toNat ≤ scheduledAdvance s.dispatch := by
  unfold scheduledAdvance
  rw [State.dispatch_elapsed, State.dispatch_params]
  obtain ⟨-, hadvance, helapsed⟩ | ⟨-, -, hadvance, helapsed⟩ | ⟨-, hlt, hnear, hadvance, helapsed⟩ |
      ⟨-, -, -, hadvance, helapsed⟩ := advance_cases s.params (nextDelay s.drainedChannels) <;>
    rw [hadvance, helapsed]
  case inr.inr.inl =>
    rw [BitVec.toNat_add, toNat_setWidth_of_lt_window hlt, nearMissEps_toNat, if_pos hnear]
    omega
  all_goals omega

/-- COUNTER, `age` ticks past the match, is behind the new COMPARE by the advance less those ticks, where the advance is
larger (rule R162). -/
theorem toNat_add_sub_of_age_lt {compare advance : Ticks} {age : Nat} (h : age < advance.toNat) :
    (compare + advance - (compare + BitVec.ofNat 16 age)).toNat + age = advance.toNat := by
  have hfits := advance.isLt
  have hcompare := compare.isLt
  rw [BitVec.toNat_sub, BitVec.toNat_add, BitVec.toNat_add, BitVec.toNat_ofNat]
  omega

/-- Rule R162: the latency is below every advance. -/
theorem pendAge_lt_compareAdvance {s : State} (hparams : LatencyBelowAdvances s.params)
    (hage : s.pendAge ≤ s.params.set.dispatchLatencyMax) :
    s.pendAge < (compareAdvance s.params (nextDelay s.drainedChannels)).toNat := by
  obtain ⟨⟨hnear, hwindow, hheartbeat⟩, heps⟩ := hparams
  have hmin := min_le_compareAdvance heps (nextDelay s.drainedChannels)
  omega

/-- Rule R162: a DISPATCH on schedule leaves COMPARE ahead of COUNTER by its advance less the latency. -/
theorem dispatch_distance {s : State} (hparams : LatencyBelowAdvances s.params) (hs : MatchOnSchedule s)
    (hpending : s.pending = true) :
    (s.dispatch.compare - s.dispatch.counter).toNat + s.pendAge =
      (compareAdvance s.params (nextDelay s.drainedChannels)).toNat := by
  obtain ⟨-, hage, hmatch, -⟩ := hs
  rw [State.dispatch_compare, State.dispatch_counter, hmatch hpending]
  exact toNat_add_sub_of_age_lt (pendAge_lt_compareAdvance hparams hage)

theorem pending_of_dispatch {s : State} (hturn : s.nextTurn = .dispatch) : s.pending = true :=
  ((due_iff s).1 (due_of_dispatch hturn)).2

/-- Settles O58: the distance and the latency make up the advance, and the advance is larger than the latency. -/
theorem dispatchSeatsCompareAhead : Obligations.DispatchSeatsCompareAhead := by
  intro s t hparams hs hturn hstep
  obtain rfl := eq_dispatch_of_step hturn hstep
  have hdistance := dispatch_distance hparams hs (pending_of_dispatch hturn)
  obtain ⟨-, hage, -⟩ := hs
  have hlt := pendAge_lt_compareAdvance hparams hage
  rw [dispatch_compare_sub]
  omega

/-- A DISPATCH keeps the machine on schedule. -/
theorem matchOnSchedule_dispatch {s : State} (hparams : LatencyBelowAdvances s.params)
    (hs : MatchOnSchedule s) (hpending : s.pending = true) : MatchOnSchedule s.dispatch := by
  have hdistance := dispatch_distance hparams hs hpending
  have hscheduled := compareAdvance_le_scheduledAdvance s
  obtain ⟨hen, hage, -, -⟩ := hs
  have hlt := pendAge_lt_compareAdvance hparams hage
  exact ⟨hen, Nat.zero_le _, fun h => (Bool.noConfusion h), fun _ => ⟨rfl, by omega, by omega⟩⟩

/-- A TICK towards a match that is not there yet leaves one tick less. -/
theorem toNat_sub_succ {compare counter : Ticks} (h : counter + 1 ≠ compare)
    (hpos : 0 < (compare - counter).toNat) :
    (compare - (counter + 1)).toNat + 1 = (compare - counter).toNat ∧ 0 < (compare - (counter + 1)).toNat := by
  have hcompare := compare.isLt
  have hcounter := counter.isLt
  have hne : (counter.toNat + 1) % 65536 ≠ compare.toNat := fun e =>
    h (BitVec.eq_of_toNat_eq (by rw [BitVec.toNat_add]; exact e))
  have hone : (counter + 1).toNat = (counter.toNat + 1) % 65536 := BitVec.toNat_add counter 1
  rw [BitVec.toNat_sub] at hpos
  rw [BitVec.toNat_sub, BitVec.toNat_sub, hone]
  omega

/-- A TICK keeps the machine on schedule: it counts a pending match within the bound, sets PENDING on the match, or
comes nearer to it. -/
theorem matchOnSchedule_tick {s : State} (hs : MatchOnSchedule s)
    (hbound : s.due = false ∨ s.pendAge < s.params.set.dispatchLatencyMax) : MatchOnSchedule s.tick := by
  obtain ⟨hen, hage, hmatch, hahead⟩ := hs
  unfold MatchOnSchedule
  simp only [State.tick_en, State.tick_params, State.tick_counter, State.tick_compare, State.tick_pending,
    State.tick_pendAge]
  cases hp : s.pending with
  | true =>
    have hdue : s.due = true := (due_iff s).2 ⟨hen, hp⟩
    have hlt : s.pendAge < s.params.set.dispatchLatencyMax := by simpa [hdue] using hbound
    have hcount : min (s.pendAge + 1) (s.params.set.dispatchLatencyMax + 1) = s.pendAge + 1 := by omega
    rw [if_pos hdue, hcount, hmatch hp, BitVec.ofNat_add, ← BitVec.add_assoc]
    exact ⟨hen, hlt, fun _ => rfl, fun h => Bool.noConfusion h⟩
  | false =>
    obtain ⟨hzero, hpos, hle⟩ := hahead hp
    have hdue : s.due = false := (due_eq_false_iff s).2 (.inr hp)
    rw [hdue, if_neg Bool.false_ne_true, hzero, Bool.false_or]
    refine ⟨hen, Nat.zero_le _, fun heq => ?_, fun hne => ?_⟩
    · rw [eq_of_beq heq, BitVec.add_zero]
    · obtain ⟨hless, hpos'⟩ := toNat_sub_succ (ne_of_beq_false hne) hpos
      have hsame : scheduledAdvance s.tick = scheduledAdvance s := rfl
      exact ⟨rfl, hpos', by rw [hsame]; omega⟩

/-- What is no reset, TICK or DISPATCH and finds no match pending keeps the machine on schedule, where it leaves
EN, COMPARE and what the schedule speaks of. -/
theorem matchOnSchedule_of_not_pending {s t : State} (hs : MatchOnSchedule s) (hpending : s.pending = false)
    (hen : t.en = true) (hparams : t.params = s.params) (hcounter : t.counter = s.counter)
    (hcompare : t.compare = s.compare) (helapsed : t.elapsed = s.elapsed) (hnone : t.pending = false)
    (hage : t.pendAge = 0) : MatchOnSchedule t := by
  obtain ⟨-, -, -, hahead⟩ := hs
  obtain ⟨-, hpos, hle⟩ := hahead hpending
  unfold MatchOnSchedule scheduledAdvance at *
  rw [hen, hage, hnone, hcounter, hcompare, helapsed, hparams]
  exact ⟨rfl, Nat.zero_le _, fun h => Bool.noConfusion h, fun _ => ⟨rfl, hpos, hle⟩⟩

/-- On schedule a host access at its turn finds no match pending (rule R61). -/
theorem pending_of_access {s : State} {a : BusAccess} (hs : MatchOnSchedule s)
    (hturn : s.nextTurn = .access a) : s.pending = false ∧ s.pendAge = 0 := by
  obtain ⟨hen, -, -, hahead⟩ := hs
  obtain ⟨hdue, -⟩ := access_turn hturn
  obtain hoff | hpending := (due_eq_false_iff s).1 hdue
  · rw [hen] at hoff
    cases hoff
  · obtain ⟨hage, -⟩ := hahead hpending
    exact ⟨hpending, hage⟩

/-- Settles O57: a TICK and a DISPATCH by rule R162's argument; a reset clears EN, and a host access but the COMPARE
write leaves the schedule as it is. -/
theorem stepKeepsMatchOnSchedule : Obligations.StepKeepsMatchOnSchedule := by
  intro s t hparams hs h hen hcompare
  cases transition_of_step h with
  | reset => cases hen
  | tick hturn => exact matchOnSchedule_tick (s := s.takeEvent) hs (tick_turn (s := s) hturn)
  | dispatch hturn => exact matchOnSchedule_dispatch hparams hs (pending_of_dispatch hturn)
  | command w hturn =>
    obtain ⟨hpending, hage⟩ := pending_of_access hs hturn
    exact matchOnSchedule_of_not_pending hs hpending hen (by simp) (by simp) (by simp) (by simp)
      (by simpa using hpending) (by simpa using hage)
  | control v hturn =>
    obtain ⟨hpending, -⟩ := pending_of_access hs hturn
    exact matchOnSchedule_of_not_pending hs hpending hen rfl rfl rfl rfl hpending rfl
  | status v hturn =>
    obtain ⟨hpending, hage⟩ := pending_of_access hs hturn
    exact matchOnSchedule_of_not_pending hs hpending hen rfl rfl rfl rfl (by simp [hpending]) (by simp [hage])
  | compare v hturn => exact absurd rfl (hcompare _ v hturn)
  | quiet => exact hs

/-- Settles O59: the write clears `pend_age`, and the advance that is scheduled is ELAPSED or more. -/
theorem enablingInTimeStartsOnSchedule : Obligations.EnablingInTimeStartsOnSchedule := by
  intro s t v hpending hpos hle hv h
  cases h
  refine ⟨hv, Nat.zero_le _, fun h => ?_, fun _ => ⟨rfl, hpos, Nat.le_add_right_of_le hle⟩⟩
  exact absurd (hpending.symm.trans h) Bool.noConfusion

end Sys2Proof.Machine
end
